-- ==== Sys2Proof/Word.lean ====
section
/-! DEFINITION. The part's smallest types: bytes, words, signed values, slot, writer and group numbers, the two
ports, the moments of a byte on RXP and the two trigger lines. Their encodings are those of 10_frame_and_record_formats.md (10.1). -/

namespace Sys2Proof

/-- A byte of a frame. -/
abbrev Byte := BitVec 8

/-- A tag, a record sequence, a commit count or a CRC: 16 bits. -/
abbrev Word16 := BitVec 16

/-- A setpoint value: a signed 32-bit integer in two's complement (00, Conventions). Compared by `toInt`. -/
abbrev Value := BitVec 32

/-- A slot of the Record Table, 0 to 255 (00, Block overview). -/
abbrev SlotNo := Fin 256

/-- A writer, 0 to 7 (R29). -/
abbrev WriterNo := Fin 8

/-- An entry of the Commit Unit: group g stands at position g - 1 (R88). -/
abbrev GroupNo := Fin 15

/-- The group operand of a commit: 0 names all fifteen groups, otherwise the group's number (R88). -/
abbrev CommitTarget := Fin 16

/-- The two command ports. -/
inductive PortId where
  | a
  | b
deriving DecidableEq, Repr

/-- The two moments of a byte on RXP at which the part acts (R176): its start bit is seen, and its stop bit ends. -/
inductive RxpMoment where
  | startBit
  | stopBit
deriving DecidableEq, Repr

/-- The two trigger lines, TRG0 and TRG1 (R100). -/
inductive TriggerLine where
  | trg0
  | trg1
deriving DecidableEq, Repr

end Sys2Proof
end

