-- ==== Sys2Proof/Syntax.lean ====
section
/-! DEFINITION. The commands of the part: one constructor for every row of spec/opcode_table.json, in the table's
order. The table gives no operands; each constructor has those its rule needs, an operation's operands in the widths
of 10.3 (R173), so that a value out of range can be named and refused (R174). -/

namespace Sys2Proof

/-- A command: an event of the part, or one of its 29 operations. The operations carry the port they arrive on and
the writer they speak for (R32). -/
inductive Instr where
  /-- POWER_ON_RESET (R27). -/
  | powerOnReset
  /-- RST_N (R27): the line is asserted and released again. -/
  | rstN
  /-- SELECT_ACTIVATION (R159). -/
  | selectActivation (port : PortId)
  /-- REQUEST (R149): the release of select that ends a REQUEST transaction, with the bytes received after the
  transaction code. -/
  | request (port : PortId) (bytes : List Byte)
  /-- FRAME_COMPLETION (R153): completion of a frame with status CRC_ERROR, MALFORMED or DUPLICATE. -/
  | frameCompletion (port : PortId)
  /-- READOUT (R157): the transaction code of a READOUT is taken. -/
  | readout (port : PortId)
  /-- READOUT_END (R157): select is released after a stored response has been clocked out completely. -/
  | readoutEnd (port : PortId)
  /-- TRANSACTION_IGNORED (R148): the first byte is neither transaction code, or there is none. -/
  | transactionIgnored (port : PortId) (first : Option Byte)
  /-- PORT_BREAK (R160): the break interval expires. -/
  | portBreak (port : PortId)
  /-- BREAK_DISMISSAL (R48). -/
  | breakDismissal (port : PortId)
  /-- BREAK_COMPLETION (R160). -/
  | breakCompletion (port : PortId)
  /-- ADMIT (R35). -/
  | admitWriter (port : PortId) (writer : WriterNo)
  /-- DISMISS (R37). -/
  | dismiss (port : PortId) (writer : WriterNo) (target : Byte)
  /-- SET_PROFILE (R45). -/
  | setProfile (port : PortId) (writer : WriterNo) (target rights ceiling : Byte) (quota : Word16)
  /-- READ_PROFILE (R46). -/
  | readProfile (port : PortId) (writer : WriterNo) (target : Byte)
  /-- CREATE (R18). -/
  | create (port : PortId) (writer : WriterNo) (tag : Word16) (group : Byte) (lower upper fallback : Value)
      (clamp publish : Byte) (freshness : Word16) (holdPolicy holdPeriod orphan : Byte)
  /-- RETIRE (R21). -/
  | retire (port : PortId) (writer : WriterNo) (tag : Word16)
  /-- READ (R22). -/
  | read (port : PortId) (writer : WriterNo) (tag : Word16)
  /-- CLEAR_TABLE (R25). -/
  | clearTable (port : PortId) (writer : WriterNo)
  /-- CLAIM (R50). -/
  | claim (port : PortId) (writer : WriterNo) (tag : Word16) (precedence : Byte)
  /-- RELEASE (R60). -/
  | release (port : PortId) (writer : WriterNo) (tag : Word16)
  /-- STAGE (R70). -/
  | stage (port : PortId) (writer : WriterNo) (tag : Word16) (value : Value)
  /-- TOUCH (R74). -/
  | touch (port : PortId) (writer : WriterNo) (tag : Word16)
  /-- UNLATCH (R76). -/
  | unlatch (port : PortId) (writer : WriterNo) (tag : Word16)
  /-- SET_LIMITS (R80). -/
  | setLimits (port : PortId) (writer : WriterNo) (tag : Word16) (lower upper : Value)
  /-- SET_FALLBACK (R82). -/
  | setFallback (port : PortId) (writer : WriterNo) (tag : Word16) (value : Value)
  /-- SET_SUPERVISION (R84). -/
  | setSupervision (port : PortId) (writer : WriterNo) (tag freshness : Word16) (holdPolicy holdPeriod orphan : Byte)
  /-- SET_GROUP (R86). -/
  | setGroup (port : PortId) (writer : WriterNo) (tag : Word16) (group : Byte)
  /-- COMMIT (R93). -/
  | commit (port : PortId) (writer : WriterNo) (group : Byte)
  /-- SET_CYCLE (R98). -/
  | setCycle (port : PortId) (writer : WriterNo) (group period : Byte)
  /-- SET_TRIGGER (R102). -/
  | setTrigger (port : PortId) (writer : WriterNo) (line enabled group : Byte)
  /-- READ_GROUP (R103). -/
  | readGroup (port : PortId) (writer : WriterNo) (group : Byte)
  /-- LINK_START (R138). -/
  | linkStart (port : PortId) (writer : WriterNo)
  /-- LINK_FLUSH (R139). -/
  | linkFlush (port : PortId) (writer : WriterNo)
  /-- RESYNC (R141). -/
  | resync (port : PortId) (writer : WriterNo)
  /-- SET_LINK (R142). -/
  | setLink (port : PortId) (writer : WriterNo) (enable bitRate timeout retry : Byte)
  /-- SCAN (R168). -/
  | scan (port : PortId) (writer : WriterNo) (stateSet owner group : Byte)
  /-- SCAN_NEXT (R169). -/
  | scanNext (port : PortId) (writer : WriterNo)
  /-- POLL (R165). -/
  | poll (port : PortId) (writer : WriterNo)
  /-- STATUS (R171). -/
  | status (port : PortId) (writer : WriterNo)
  /-- FRESHNESS_EXPIRY (R108): the freshness countdown of a slot runs out. -/
  | freshnessExpiry (slot : SlotNo)
  /-- HOLD_TIMER_EXPIRY (R110): the hold timer of a slot runs out. -/
  | holdTimerExpiry (slot : SlotNo)
  /-- CYCLE_TIMER_EXPIRY (R96): the cycle timer of a group runs out. -/
  | cycleTimerExpiry (group : GroupNo)
  /-- RISING_EDGE (R100): a trigger line changes from low to high. -/
  | risingEdge (line : TriggerLine)
  /-- SAFE_N_CHANGE (R115): the SAFE_N line changes to the level named. -/
  | safeNChange (high : Bool)
  /-- SAFE_ENTRY (R117): the stability interval runs out with the line low. -/
  | safeEntry
  /-- SAFE_RELEASE (R120): the stability interval runs out with the line high. -/
  | safeRelease
  /-- SEND_EVENT (R129). -/
  | sendEvent
  /-- END_OF_TRANSMISSION (R131). -/
  | endOfTransmission
  /-- ACKNOWLEDGEMENT (R134): two bytes, kind and link sequence number, received in time. -/
  | acknowledgement (kind number : Byte)
  /-- ACKNOWLEDGEMENT_TIMER_EXPIRY (R133). -/
  | acknowledgementTimerExpiry
  /-- BATCH_APPLICATION (R153). -/
  | batchApplication (port : PortId)
  /-- CLOCK_EDGE (R159). -/
  | clockEdge (port : PortId)
  /-- SELECT_RELEASE (R159): select is released, with no frame completed and no response read completely. -/
  | selectRelease (port : PortId)
  /-- RXP_BYTE (R176): a byte on RXP with the level of its stop bit, at one of the two moments at which the part acts on
  it. At the start bit neither the byte nor its stop bit counts. -/
  | rxpByte (byte : Byte) (stopHigh : Bool) (moment : RxpMoment)
deriving DecidableEq, Repr

end Sys2Proof
end

