-- ==== Sys2Proof/Decode.lean ====
section
/-! DEFINITION. Commands spelt by table words, and by the bits of a transaction on a command port. Every row of
spec/opcode_table.json has an empty field list and no pattern of bits, so no word spells a command. The bytes of the
request frame that a transaction carries are read and written in Machine/Frames.lean (R151, 10.2, 10.3). -/

namespace Sys2Proof

/-- The command that a word spells by the table's bits: none, since no row of the table gives bits. -/
def decodeTableWord (_nbits _w : Nat) : Option Instr :=
  none

/-! ### The bits of a transaction (R148, R174) -/

/-- The two transaction codes (R174). -/
inductive TransactionCode where
  | request
  | readout
deriving DecidableEq, Repr

/-- The transaction code a first byte is, if it is one (R174). -/
def transactionCode? (first : Byte) : Option TransactionCode :=
  if first = 0xA1 then some .request else if first = 0xA2 then some .readout else none

/-- An edge of CLK_x in a transaction, a rising one with the level of SDI. -/
inductive SerialEdge where
  | rising (sdi : Bool)
  | falling
deriving DecidableEq, Repr

/-- The bits the part samples from SDI: one at each rising edge of CLK_x (R174). -/
def sampledBits : List SerialEdge → List Bool
  | [] => []
  | .rising sdi :: rest => sdi :: sampledBits rest
  | .falling :: rest => sampledBits rest

/-- The bits of a byte on a command port, most significant first (R174). -/
def msbFirst (b : Byte) : List Bool :=
  [b.getLsbD 7, b.getLsbD 6, b.getLsbD 5, b.getLsbD 4, b.getLsbD 3, b.getLsbD 2, b.getLsbD 1, b.getLsbD 0]

/-- A byte from its bits, most significant first. -/
def byteOfBits (b7 b6 b5 b4 b3 b2 b1 b0 : Bool) : Byte :=
  BitVec.ofBool b7 ++ BitVec.ofBool b6 ++ BitVec.ofBool b5 ++ BitVec.ofBool b4 ++ BitVec.ofBool b3 ++
    BitVec.ofBool b2 ++ BitVec.ofBool b1 ++ BitVec.ofBool b0

/-- The bytes clocked in on SDI, each from eight bits. Bits left over at the release of select make no byte
(notes/assumptions/19.md). -/
def bytesOfBits : List Bool → List Byte
  | b7 :: b6 :: b5 :: b4 :: b3 :: b2 :: b1 :: b0 :: rest => byteOfBits b7 b6 b5 b4 b3 b2 b1 b0 :: bytesOfBits rest
  | _ => []

/-- The command that the bytes of a transaction spell: by the first byte a REQUEST with the bytes after it, a READOUT,
or, where it is neither code or there is none, a transaction ignored (R148, R174). -/
def transactionCommand (port : PortId) (sdi : List Byte) : Instr :=
  match sdi with
  | [] => .transactionIgnored port none
  | first :: rest =>
    match transactionCode? first with
    | some .request => .request port rest
    | some .readout => .readout port
    | none => .transactionIgnored port (some first)

/-- The command that the edges of a transaction spell (R148, R174). -/
def serialCommand (port : PortId) (edges : List SerialEdge) : Instr :=
  transactionCommand port (bytesOfBits (sampledBits edges))

/-! ### The bits of a byte on RXP (R175, R176) -/

/-- The command that the ten bits of a byte on RXP spell at the end of the last one: a start bit at low level, eight data
bits least significant first, and the stop bit, whose level the command names. None where the first is no start bit or
the bits are not ten. -/
def rxpCommand? : List Bool → Option Instr
  | [start, b0, b1, b2, b3, b4, b5, b6, b7, stop] =>
    if start then none else some (.rxpByte (byteOfBits b7 b6 b5 b4 b3 b2 b1 b0) stop .stopBit)
  | _ => none

end Sys2Proof
end

