-- ==== Sys2Proof/Config.lean ====
section
/-! DEFINITION. The free values of the model: what the spec leaves open and no proof may see. -/

namespace Sys2Proof.Config

/-- Which of the events that may come next the part takes first when no command waits: the spec lets either of two
events be taken first (00, Events and their order; R5) and lets a send event follow at once or later (R129).
A free value without a body, applied to the number of choices made before (notes/assumptions/3.md). -/
opaque choice : Nat → Nat

/-- The record sequence of an UPDATE frame latched while its slot holds no record: the manual gives none (R129, R136;
notes/assumptions/13.md). -/
opaque unstatedSequence : Nat → Word16

/-- The number of the slot state in such a frame, taken modulo 6 (notes/assumptions/13.md). -/
opaque unstatedState : Nat → Nat

/-- The value of an UPDATE frame latched while its slot holds no live value: the manual gives none
(notes/assumptions/13.md). -/
opaque unstatedValue : Nat → Value

end Sys2Proof.Config
end

