-- ==== Sys2Proof/Machine/State.lean ====
section
/-! DEFINITION. Everything the spec gives the part to hold, as plain data, and its values after reset. The chapters of
spec/ that name each piece stand in the docstrings; INVENTORY.md lists them all with their reset values. -/

namespace Sys2Proof.Machine

/-! ### Timers -/

/-- A timer of the part: STOPPED, or RUNNING with the time remaining until its expiry, in units of 0.25
microseconds (R105, R147; notes/assumptions/2.md). -/
inductive Timer where
  | stopped
  | running (remaining : Nat)
deriving DecidableEq, Repr

/-- A hold timer. While RUNNING it also holds the period it was started with (R105). -/
inductive HoldTimer where
  | stopped
  | running (remaining period : Nat)
deriving DecidableEq, Repr

/-! ### Records and slots (chapter 1) -/

/-- The four states of a record that agents can find by its tag (R4). -/
inductive RecordState where
  | dormant
  | live
  | held
  | latched
deriving DecidableEq, Repr

/-- The six states of a slot (R4), as results, views and publication frames name them. -/
inductive SlotState where
  | free
  | vacating
  | dormant
  | live
  | held
  | latched
deriving DecidableEq, Repr

/-- The reason for a hold (R1). -/
inductive HoldCause where
  | expiry
  | safe
deriving DecidableEq, Repr

/-- What freshness expiry and hold expiry lead to (R1). -/
inductive HoldPolicy where
  | resume
  | latch
deriving DecidableEq, Repr

/-- What a record does when it loses its owner (R1, R39). -/
inductive OrphanPolicy where
  | keep
  | fallback
  | retire
deriving DecidableEq, Repr

/-- A staged entry (R66). -/
structure Staged where
  value : Value
  clamped : Bool
deriving DecidableEq, Repr

/-- A point record (R1), with the two timers the Supervision Unit holds for its slot (R105). -/
structure Record where
  tag : Word16
  state : RecordState
  owner : Option WriterNo
  precedence : Nat
  live : Option Value
  staged : Option Staged
  fallback : Value
  lower : Value
  upper : Value
  clamp : Bool
  publish : Bool
  group : GroupNo
  freshnessCode : Nat
  holdPolicy : HoldPolicy
  holdPeriod : Fin 4
  orphan : OrphanPolicy
  holdCause : Option HoldCause
  refreshed : Option Bool
  sequence : Word16
  countdown : Timer
  holdTimer : HoldTimer
deriving DecidableEq, Repr

/-- A slot of the Record Table. A VACATING slot keeps a tag and a sequence and nothing else; a FREE slot holds
nothing (R3). -/
inductive Slot where
  | free
  | vacating (tag sequence : Word16)
  | holding (record : Record)
deriving DecidableEq, Repr

/-- The Record Table: the slots that are not FREE with what they hold, slots strictly rising. An unlisted slot is
FREE, so that equal tables are equal lists. -/
abbrev Table := List (SlotNo × Slot)

/-! ### Writers (chapter 2) -/

/-- The six rights (R30). -/
inductive Right where
  | create
  | retire
  | stage
  | shape
  | commit
  | link
deriving DecidableEq, Repr

/-- A set of rights: bit n stands for the n-th right of 10.1. -/
abbrev Rights := BitVec 6

/-- A profile (R30). -/
structure Profile where
  rights : Rights
  ceiling : Nat
  quota : Nat
deriving DecidableEq, Repr

/-- A writer slot (R29). `binding` is absent while the writer is VACANT and names the bound port while it is
ADMITTED. -/
structure WriterSlot where
  binding : Option PortId
  ownedCount : Nat
deriving DecidableEq, Repr

/-! ### The Commit Unit (chapter 5) -/

/-- A group entry (R88). -/
structure GroupEntry where
  period : Byte
  timer : Timer
  count : Word16
deriving DecidableEq, Repr

/-- A trigger-line entry (R100). -/
structure TriggerEntry where
  enabled : Bool
  group : CommitTarget
deriving DecidableEq, Repr

/-! ### The SAFE state (chapter 6) -/

/-- The filtered level of the SAFE input (R106). -/
inductive SafeLevel where
  | released
  | active
deriving DecidableEq, Repr

/-- The SAFE state (R106), with the level of the SAFE_N line that the filter compares it with (R115). -/
structure SafeState where
  level : SafeLevel
  stability : Timer
  seenActive : Bool
  commitRefused : Bool
  lineHigh : Bool
deriving DecidableEq, Repr

/-! ### The Publication Link (chapter 7) -/

/-- The link states (R125). -/
inductive LinkState where
  | off
  | idle
  | sending
  | awaitingAck
  | down
deriving DecidableEq, Repr

/-- The bit rates of the link: 1, 2 and 4 Mbit/s (R124). -/
inductive BitRate where
  | mbit1
  | mbit2
  | mbit4
deriving DecidableEq, Repr

/-- The four link settings (R124). -/
structure LinkSettings where
  enable : Bool
  bitRate : BitRate
  timeoutCode : Nat
  retryLimit : Nat
deriving DecidableEq, Repr

/-- The kind of a pending entry and of a publication frame (R126). -/
inductive EntryKind where
  | update
  | retire
deriving DecidableEq, Repr

/-- A pending entry of the Publication Queue (R126). -/
structure Entry where
  slot : SlotNo
  tag : Word16
  kind : EntryKind
deriving DecidableEq, Repr

/-- The content of a publication frame, fixed when it is latched (R129). -/
structure PubFrame where
  number : Byte
  kind : EntryKind
  tag : Word16
  sequence : Word16
  state : SlotState
  value : Value
deriving DecidableEq, Repr

/-- The frame in flight with the entry it was taken from and the retransmissions made so far (R124). -/
structure InFlight where
  frame : PubFrame
  entry : Entry
  retries : Nat
deriving DecidableEq, Repr

/-- The transmission on TXP: STOPPED, or RUNNING with the time left until its end and the bit rate read at its start
(R142, R175; notes/assumptions/15.md). -/
inductive Transmission where
  | stopped
  | running (remaining : Nat) (rate : BitRate)
deriving DecidableEq, Repr

/-- A byte under way on RXP: the bit rate its start bit saw, and the time since (R176; notes/assumptions/12.md). -/
structure Reception where
  rate : BitRate
  age : Nat
deriving DecidableEq, Repr

/-- An open acknowledgement byte, with the time since the end of its stop bit (R176; notes/assumptions/12.md). -/
structure OpenByte where
  kind : Byte
  age : Nat
deriving DecidableEq, Repr

/-- The Publication Link (R124), with the transmission on TXP (R175). -/
structure Link where
  state : LinkState
  settings : LinkSettings
  nextNumber : Byte
  inFlight : Option InFlight
  noted : Bool
  ackTimer : Timer
  transmission : Transmission
  openByte : Option OpenByte
  queue : List Entry
deriving DecidableEq, Repr

/-! ### Notices, cursors and views (chapter 9) -/

/-- A notice (R163). -/
inductive Notice where
  | claimLost (tag : Word16) (writer : WriterNo) (precedence : Nat)
  | holdEntered (tag : Word16)
  | latched (tag : Word16)
  | resumed (tag : Word16)
  | safeChanged (level : SafeLevel)
  | linkDown
deriving DecidableEq, Repr

/-- The owner part of a scan filter (R167). -/
inductive OwnerFilter where
  | any
  | unowned
  | writer (w : WriterNo)
deriving DecidableEq, Repr

/-- A scan filter (R167). Bits 0 to 3 of `states` stand for DORMANT, LIVE, HELD and LATCHED; 0 stands for all
four. An absent group stands for ANY. -/
structure Filter where
  states : BitVec 4
  owner : OwnerFilter
  group : Option GroupNo
deriving DecidableEq, Repr

/-- An open scan cursor (R167). -/
structure Cursor where
  writer : WriterNo
  filter : Filter
  nextSlot : Nat
deriving DecidableEq, Repr

/-- The short view of a record (R169). -/
structure ShortView where
  slot : SlotNo
  tag : Word16
  state : RecordState
  owner : Option WriterNo
  precedence : Nat
  group : GroupNo
  live : Option Value
  holdCause : Option HoldCause
  staged : Bool
  sequence : Word16
deriving DecidableEq, Repr

/-- The full description of a record that READ returns (R23). -/
structure Description where
  slot : SlotNo
  tag : Word16
  state : RecordState
  owner : Option WriterNo
  precedence : Nat
  live : Option Value
  staged : Option Staged
  fallback : Value
  lower : Value
  upper : Value
  clamp : Bool
  publish : Bool
  group : GroupNo
  freshnessCode : Nat
  holdPolicy : HoldPolicy
  holdPeriod : Fin 4
  orphan : OrphanPolicy
  holdCause : Option HoldCause
  refreshed : Option Bool
  sequence : Word16
  pending : Bool
deriving DecidableEq, Repr

/-! ### Operations and results (chapters 8 and 10) -/

/-- The status codes of an operation, in the order of their codes (10.4). -/
inductive Status where
  | ok
  | skipped
  | notAdmitted
  | wrongPort
  | alreadyAdmitted
  | noRight
  | badOperand
  | unknownTag
  | duplicateTag
  | tableFull
  | notOwner
  | claimHeld
  | outranked
  | aboveCeiling
  | quotaFull
  | outOfRange
  | limitConflict
  | badState
  | safeActive
  | writerBusy
  | writerPresent
  | noCursor
  | linkState
deriving DecidableEq, Repr

/-- What an accepted CLAIM did (R58). -/
inductive ClaimKind where
  | new
  | reclaim
  | takeover
deriving DecidableEq, Repr

/-- The effect a TOUCH reports (R74). -/
inductive TouchEffect where
  | none
  | restarted
  | refreshed
deriving DecidableEq, Repr

/-- The data of an operation's result, item by item as its rule names them; 10.3 gives the bytes. -/
inductive Data where
  /-- No data. -/
  | empty
  /-- DISMISS: records that lost their owner, and those of them retired (R37). -/
  | dismissed (unowned retired : Nat)
  /-- READ_PROFILE (R46). -/
  | profile (writer : WriterNo) (profile : Profile) (slot : WriterSlot)
  /-- CREATE, SET_LIMITS, SET_SUPERVISION: the slot number. -/
  | slot (slot : SlotNo)
  /-- RETIRE, RELEASE, UNLATCH: the slot number and the slot's state (R21, R60, R76). -/
  | slotState (slot : SlotNo) (state : SlotState)
  /-- READ (R23). -/
  | description (d : Description)
  /-- CLAIM (R58). -/
  | claimed (slot : SlotNo) (kind : ClaimKind) (previousOwner : Option WriterNo) (previousPrecedence : Nat)
  /-- A CLAIM refused with CLAIM_HELD or OUTRANKED: owner and precedence (R54). -/
  | holder (owner : WriterNo) (precedence : Nat)
  /-- STAGE (R71). -/
  | staged (slot : SlotNo) (value : Value) (clamped : Bool)
  /-- TOUCH (R74). -/
  | touched (slot : SlotNo) (effect : TouchEffect)
  /-- A SET_LIMITS refused with LIMIT_CONFLICT (R80). -/
  | outside (fallback live staged : Bool)
  /-- SET_FALLBACK: whether the live value changed (R82). -/
  | fallbackSet (slot : SlotNo) (liveChanged : Bool)
  /-- SET_GROUP: the previous group (R86). -/
  | regrouped (slot : SlotNo) (previous : GroupNo)
  /-- COMMIT: changed count and commit count (R94). -/
  | committed (changed : Nat) (count : Word16)
  /-- SET_CYCLE: the previous period (R98). -/
  | previousPeriod (period : Byte)
  /-- SET_TRIGGER: the previous entry (R102). -/
  | previousTrigger (entry : TriggerEntry)
  /-- READ_GROUP (R103). -/
  | group (group : GroupNo) (entry : GroupEntry) (members staged : Nat) (trg0 trg1 : TriggerEntry)
  /-- LINK_START: pending entries; RESYNC: entries added (R138, R141). -/
  | entries (count : Nat)
  /-- LINK_FLUSH: entries discarded and slots freed (R139). -/
  | flushed (discarded freed : Nat)
  /-- SET_LINK: the previous settings and the link state after (R142). -/
  | previousLink (settings : LinkSettings) (after : LinkState)
  /-- SCAN and SCAN_NEXT (R169). -/
  | views (atEnd : Bool) (nextSlot : Nat) (views : List ShortView)
  /-- POLL: overflow flag before the clear, notices left, and the notices (R165). -/
  | notices (overflow : Bool) (left : Nat) (notices : List Notice)
  /-- STATUS (R171). -/
  | status (level : SafeLevel) (seenActive commitRefused : Bool) (link : LinkState)
      (pending freeCount vacatingCount : Nat) (bindings : List (Option PortId))
  /-- CLEAR_TABLE: records retired, and those of them VACATING (R25). -/
  | cleared (retired vacating : Nat)
deriving DecidableEq, Repr

/-- The result of one operation (R156). -/
structure OpResult where
  status : Status
  data : Data
deriving DecidableEq, Repr

/-- The 29 operations of a batch, in the order of their identifiers, with their operands in encoded widths (10.3). -/
inductive Op where
  | admitWriter
  | dismiss (target : Byte)
  | setProfile (target rights ceiling : Byte) (quota : Word16)
  | readProfile (target : Byte)
  | create (tag : Word16) (group : Byte) (lower upper fallback : Value) (clamp publish : Byte) (freshness : Word16)
      (holdPolicy holdPeriod orphan : Byte)
  | retire (tag : Word16)
  | read (tag : Word16)
  | claim (tag : Word16) (precedence : Byte)
  | release (tag : Word16)
  | stage (tag : Word16) (value : Value)
  | touch (tag : Word16)
  | unlatch (tag : Word16)
  | setLimits (tag : Word16) (lower upper : Value)
  | setFallback (tag : Word16) (value : Value)
  | setSupervision (tag freshness : Word16) (holdPolicy holdPeriod orphan : Byte)
  | setGroup (tag : Word16) (group : Byte)
  | commit (group : Byte)
  | setCycle (group period : Byte)
  | setTrigger (line enabled group : Byte)
  | readGroup (group : Byte)
  | linkStart
  | linkFlush
  | resync
  | setLink (enable bitRate timeout retry : Byte)
  | scan (stateSet owner group : Byte)
  | scanNext
  | poll
  | status
  | clearTable
deriving DecidableEq, Repr

/-! ### Command ports (chapter 8) -/

/-- How a taken frame was judged (R150). A frame with status OK carries its writer and its batch. -/
inductive Judgement where
  | crcError
  | malformed
  | duplicate
  | ok (writer : WriterNo) (batch : List Op)
deriving DecidableEq, Repr

/-- The frame in service: its sequence as received, its CRC and its judgement (R149, R150). -/
structure TakenFrame where
  sequence : Byte
  crc : Word16
  judgement : Judgement
deriving DecidableEq, Repr

/-- What a port is doing. The port state is READY in the first case and IN_SERVICE in the other two (R147). -/
inductive Service where
  | ready
  | serving (frame : TakenFrame)
  | breaking
deriving DecidableEq, Repr

/-- The outcome of a frame as a whole (10.4). -/
inductive FrameStatus where
  | ok
  | crcError
  | malformed
  | duplicate
  | none
deriving DecidableEq, Repr

/-- A response, field by field (R156). Its bytes, with length and CRC, are `Response.bytes` (10.4). -/
structure Response where
  sequence : Byte
  status : FrameStatus
  overrun : Bool
  previousUnread : Bool
  noticeOverflow : Bool
  noticeCount : Nat
  results : List OpResult
deriving DecidableEq, Repr

/-- The stored response with its read mark (R147). -/
structure StoredResponse where
  response : Response
  read : Bool
deriving DecidableEq, Repr

/-- The duplicate memory (R147, R152). -/
structure DuplicateMemory where
  sequence : Byte
  crc : Word16
  results : List OpResult
deriving DecidableEq, Repr

/-- The transaction on a port's serial interface (R148). The select line is active in every case but the first. -/
inductive Transaction where
  /-- Select is inactive. -/
  | inactive
  /-- Select is active and no transaction has yet been recognised. -/
  | begun
  /-- A READOUT: whether it sends a stored response (else a NONE header), and the bytes it sends (R157). -/
  | readout (ofStored : Bool) (bytes : List Byte)
  /-- The first byte was neither transaction code (R148). -/
  | ignored
  /-- A port break ended the transaction; select has not been released since (R159). -/
  | broken
  /-- A reset ended the transaction; select has not been released since (R162). -/
  | lost
deriving DecidableEq, Repr

/-- A command port (R147, R163, R167). -/
structure Port where
  service : Service
  stored : Option StoredResponse
  duplicate : Option DuplicateMemory
  overrun : Bool
  unreadDiscarded : Bool
  breakInterval : Timer
  transaction : Transaction
  notices : List Notice
  noticeOverflow : Bool
  cursor : Option Cursor
deriving DecidableEq, Repr

/-! ### The part -/

/-- Why the part stops. No rule of the spec stops it: a refused operation is a result with a status code, after which
the part goes on (R153; notes/assumptions/16.md). The type has no constructor. -/
inductive Fault where
deriving DecidableEq, Repr

/-- Why a command has no meaning here. -/
inductive Refusal where
  /-- Raised by an arm of `exec` whose row has no meaning in this model; safe, since the model stops there. -/
  | notModelled (mnemonic : String)
deriving DecidableEq, Repr

/-- The whole part. `result`, `choices` and `pending` are the model's own fields (notes/assumptions/5.md, 3.md, 1.md);
everything else is the spec's. -/
structure State where
  table : Table
  tagIndex : List (Word16 × SlotNo)
  freeCount : Nat
  vacatingCount : Nat
  writers : Vector WriterSlot 8
  profiles : Vector Profile 8
  groups : Vector GroupEntry 15
  trg0 : TriggerEntry
  trg1 : TriggerEntry
  safe : SafeState
  link : Link
  rxp : Option Reception
  portA : Port
  portB : Port
  result : Option OpResult
  choices : Nat
  pending : List Instr
deriving DecidableEq, Repr

/-- A port after reset with its select line inactive (R162, R172). -/
def Port.reset : Port where
  service := .ready
  stored := none
  duplicate := none
  overrun := false
  unreadDiscarded := false
  breakInterval := .stopped
  transaction := .inactive
  notices := []
  noticeOverflow := false
  cursor := none

/-- The link after reset (R146). -/
def Link.reset : Link where
  state := .off
  settings := { enable := false, bitRate := .mbit1, timeoutCode := 4, retryLimit := 3 }
  nextNumber := 0
  inFlight := none
  noted := false
  ackTimer := .stopped
  transmission := .stopped
  openByte := none
  queue := []

/-- The SAFE state after reset with the SAFE_N line high (R116, R123). -/
def SafeState.reset : SafeState where
  level := .released
  stability := .stopped
  seenActive := false
  commitRefused := false
  lineHigh := true

/-- The profiles after reset (R30, R47). -/
def resetProfiles : Vector Profile 8 :=
  (Vector.replicate 8 { rights := 0, ceiling := 0, quota := 0 }).set 0
    { rights := 0b111111, ceiling := 15, quota := 256 }

/-- The part right after reset, SAFE_N high and both select lines inactive (R27, R47, R104, R123, R146, R162, R172;
notes/assumptions/7.md). -/
def State.reset : State where
  table := []
  tagIndex := []
  freeCount := 256
  vacatingCount := 0
  writers := Vector.replicate 8 { binding := none, ownedCount := 0 }
  profiles := resetProfiles
  groups := Vector.replicate 15 { period := 0, timer := .stopped, count := 0 }
  trg0 := { enabled := false, group := 1 }
  trg1 := { enabled := false, group := 1 }
  safe := SafeState.reset
  link := Link.reset
  rxp := none
  portA := Port.reset
  portB := Port.reset
  result := none
  choices := 0
  pending := []

end Sys2Proof.Machine
end

