-- ==== Sys2Proof/Machine/Ops.lean ====
section
/-! DEFINITION. The named operations over the part's state that the commands share: the Record Table and the Tag Index,
the hand-over to the Publication Queue, the change of a record with its sequence, retirement, the loss of owner,
notices, and the order of an operation's checks. -/

namespace Sys2Proof.Machine

/-! ### Time (00, Conventions; notes/assumptions/2.md) -/

/-- A number of milliseconds in units of 0.25 microseconds. -/
def ms (n : Nat) : Nat :=
  4000 * n

/-- A number of quarter milliseconds in units of 0.25 microseconds (R124, timeout code). -/
def quarterMs (n : Nat) : Nat :=
  1000 * n

/-- One bit time on the link in units of 0.25 microseconds (R175). -/
def bitTime : BitRate → Nat
  | .mbit1 => 4
  | .mbit2 => 2
  | .mbit4 => 1

/-- A transmission lasts 140 bit times (R175). -/
def transmissionTime (rate : BitRate) : Nat :=
  140 * bitTime rate

/-- A transmission just begun at a bit rate, which it keeps to its end (R142, R175). -/
def transmissionAt (rate : BitRate) : Transmission :=
  .running (transmissionTime rate) rate

/-- A byte on a link line takes ten bit times from the start of its start bit to the end of its stop bit (R175, R176). -/
def byteTime (rate : BitRate) : Nat :=
  10 * bitTime rate

/-- The start bit of the second byte of an acknowledgement comes within 20 bit times of the end of the first byte's stop
bit (R176). -/
def ackWindow (rate : BitRate) : Nat :=
  20 * bitTime rate

/-- The break interval, 5 ms (R159). -/
def breakTime : Nat :=
  ms 5

/-- The freshness period is the code times 10 ms; code 0 starts no countdown (R1, R107). -/
def countdownFor (code : Nat) : Timer :=
  if code = 0 then .stopped else .running (ms (10 * code))

/-- The hold periods 50 ms, 200 ms, 1 s and 5 s (R1). -/
def holdPeriodTime (code : Fin 4) : Nat :=
  ms (match code with | 0 => 50 | 1 => 200 | 2 => 1000 | 3 => 5000)

/-- A hold timer just started or restarted (R105). -/
def holdTimerFor (code : Fin 4) : HoldTimer :=
  .running (holdPeriodTime code) (holdPeriodTime code)

/-! ### The Record Table -/

/-- What a slot holds; an unlisted slot is FREE. -/
def Table.read : Table → SlotNo → Slot
  | [], _ => .free
  | (j, x) :: t, i => if j = i then x else Table.read t i

/-- The entry of a slot put at its place in a rising list, in the place of an entry of the same slot. -/
def Table.insert (i : SlotNo) (x : Slot) : Table → Table
  | [] => [(i, x)]
  | (j, y) :: t =>
    if i < j then (i, x) :: (j, y) :: t
    else if i = j then (i, x) :: t
    else (j, y) :: Table.insert i x t

/-- A slot's new contents. A slot that becomes FREE is no longer listed. -/
def Table.write (t : Table) (i : SlotNo) (x : Slot) : Table :=
  if x = .free then t.filter (fun e => e.1 ≠ i) else Table.insert i x t

/-- The canonical form: slots strictly rising and no FREE slot listed. -/
def Table.wf (t : Table) : Bool :=
  decide (t.Pairwise (fun a b => a.1 < b.1)) && t.all (fun e => e.2 ≠ .free)

/-- The 256 slots in ascending order. -/
def allSlots : List SlotNo :=
  List.finRange 256

/-- The fifteen groups in ascending order. -/
def allGroups : List GroupNo :=
  List.finRange 15

/-- The eight writers in ascending order. -/
def allWriters : List WriterNo :=
  List.finRange 8

/-- What a slot holds. -/
def State.slot (s : State) (i : SlotNo) : Slot :=
  s.table.read i

/-- The part with a slot's contents replaced. -/
def State.setSlot (s : State) (i : SlotNo) (x : Slot) : State :=
  { s with table := s.table.write i x }

/-- The record a slot holds, if it holds one. -/
def Slot.record? : Slot → Option Record
  | .holding r => some r
  | _ => none

/-- The state of a record as a state of its slot (R4). -/
def RecordState.slotState : RecordState → SlotState
  | .dormant => .dormant
  | .live => .live
  | .held => .held
  | .latched => .latched

/-- The state of a slot (R4). -/
def Slot.state : Slot → SlotState
  | .free => .free
  | .vacating _ _ => .vacating
  | .holding r => r.state.slotState

/-- The FREE slot with the lowest number (R6). -/
def State.lowestFree (s : State) : Option SlotNo :=
  allSlots.find? (fun i => s.slot i = .free)

/-! ### Writers, profiles, groups, triggers, ports, link -/

/-- A writer slot. -/
def State.writer (s : State) (w : WriterNo) : WriterSlot :=
  s.writers[w]

/-- The part with a writer slot replaced. -/
def State.setWriter (s : State) (w : WriterNo) (x : WriterSlot) : State :=
  { s with writers := s.writers.set w x }

/-- A writer's profile. -/
def State.profile (s : State) (w : WriterNo) : Profile :=
  s.profiles[w]

/-- The part with a profile replaced. -/
def State.setProfile (s : State) (w : WriterNo) (x : Profile) : State :=
  { s with profiles := s.profiles.set w x }

/-- A group entry. -/
def State.groupEntry (s : State) (g : GroupNo) : GroupEntry :=
  s.groups[g]

/-- The part with a group entry replaced. -/
def State.setGroupEntry (s : State) (g : GroupNo) (x : GroupEntry) : State :=
  { s with groups := s.groups.set g x }

/-- A trigger-line entry. -/
def State.trigger (s : State) : TriggerLine → TriggerEntry
  | .trg0 => s.trg0
  | .trg1 => s.trg1

/-- The part with a trigger-line entry replaced. -/
def State.setTrigger (s : State) (l : TriggerLine) (x : TriggerEntry) : State :=
  match l with
  | .trg0 => { s with trg0 := x }
  | .trg1 => { s with trg1 := x }

/-- A command port. -/
def State.port (s : State) : PortId → Port
  | .a => s.portA
  | .b => s.portB

/-- The part with a command port replaced. -/
def State.setPort (s : State) (p : PortId) (x : Port) : State :=
  match p with
  | .a => { s with portA := x }
  | .b => { s with portB := x }

/-- The part with the link replaced. -/
def State.setLink (s : State) (x : Link) : State :=
  { s with link := x }

/-- The part with the SAFE state replaced. -/
def State.setSafe (s : State) (x : SafeState) : State :=
  { s with safe := x }

/-- The position of a right in the rights byte (10.1). -/
def Right.bit : Right → Nat
  | .create => 0
  | .retire => 1
  | .stage => 2
  | .shape => 3
  | .commit => 4
  | .link => 5

/-- Whether a profile holds a right (R30). -/
def Profile.holds (p : Profile) (r : Right) : Bool :=
  p.rights.getLsbD r.bit

/-- SAFE is active: the filtered level is ACTIVE (R106). -/
def State.safeActive (s : State) : Bool :=
  s.safe.level == .active

/-! ### The lines a port drives (R147) -/

/-- RDY_x: asserted while the stored response is present with read mark no. -/
def Port.rdy (p : Port) : Bool :=
  match p.stored with
  | some r => !r.read
  | none => false

/-- ATTN_x: asserted while the Notice Queue holds at least one notice. -/
def Port.attn (p : Port) : Bool :=
  !p.notices.isEmpty

/-- The select line of the port is active. -/
def Port.selected (p : Port) : Bool :=
  p.transaction != .inactive

/-! ### The Tag Index (R8, R9) -/

/-- The entry {tag, slot} joins the index. -/
def indexInsert (tag : Word16) (i : SlotNo) : List (Word16 × SlotNo) → List (Word16 × SlotNo)
  | [] => [(tag, i)]
  | (t, j) :: rest =>
    if tag < t then (tag, i) :: (t, j) :: rest
    else if tag = t then (tag, i) :: rest
    else (t, j) :: indexInsert tag i rest

/-- The entry of a tag leaves the index. -/
def indexErase (tag : Word16) (ix : List (Word16 × SlotNo)) : List (Word16 × SlotNo) :=
  ix.filter (fun e => e.1 ≠ tag)

/-- The slot and record that a tag names (R9). -/
def State.find (s : State) (tag : Word16) : Option (SlotNo × Record) :=
  match s.tagIndex.lookup tag with
  | none => none
  | some i =>
    match s.slot i with
    | .holding r => some (i, r)
    | _ => none

/-! ### Notices (R34, R164) -/

/-- A notice reaches a port's queue: it joins at the tail, or sets the overflow flag when 32 notices stand there. -/
def Port.notify (p : Port) (n : Notice) : Port :=
  if p.notices.length < 32 then { p with notices := p.notices ++ [n] } else { p with noticeOverflow := true }

/-- A notice is handed to a port. -/
def State.notifyPort (s : State) (p : PortId) (n : Notice) : State :=
  s.setPort p ((s.port p).notify n)

/-- A notice addressed to a writer goes to the port it is bound to, or nowhere while it is VACANT (R34). -/
def State.notifyWriter (s : State) (w : WriterNo) (n : Notice) : State :=
  match (s.writer w).binding with
  | some p => s.notifyPort p n
  | none => s

/-- A notice addressed to a record's owner. -/
def State.notifyOwner (s : State) (r : Record) (n : Notice) : State :=
  match r.owner with
  | some w => s.notifyWriter w n
  | none => s

/-- A device notice goes to both ports (R164). -/
def State.notifyBoth (s : State) (n : Notice) : State :=
  (s.notifyPort .a n).notifyPort .b n

/-! ### The Publication Queue (R12, R14, R126) -/

/-- Whether a slot has a pending entry. -/
def State.pendingAt (s : State) (i : SlotNo) : Bool :=
  s.link.queue.any (fun e => e.slot == i)

/-- The part with the Publication Queue replaced. -/
def State.setQueue (s : State) (q : List Entry) : State :=
  s.setLink { s.link with queue := q }

/-- A change of a published record is handed on: an UPDATE entry joins the tail unless the slot has a pending entry;
nothing is handed on while the link is OFF (R12). -/
def State.handUpdate (s : State) (i : SlotNo) (tag : Word16) : State :=
  if s.link.state = .off ∨ s.pendingAt i then s
  else s.setQueue (s.link.queue ++ [{ slot := i, tag := tag, kind := .update }])

/-- A retirement is handed on: a pending UPDATE entry of the slot becomes RETIRE in place, with the tag the record has
then (R126), otherwise a RETIRE entry joins the tail (R14). -/
def State.handRetire (s : State) (i : SlotNo) (tag : Word16) : State :=
  let entry : Entry := { slot := i, tag := tag, kind := .retire }
  if s.pendingAt i then s.setQueue (s.link.queue.map (fun e => if e.slot = i then entry else e))
  else s.setQueue (s.link.queue ++ [entry])

/-! ### Changing a record (R11, R12) -/

/-- One event's change of the record in a slot from `old` to `new`. Where the live value or the state differs, the
sequence rises by 1 and a published record's change is handed on; otherwise the sequence stays. -/
def State.changeRecord (s : State) (i : SlotNo) (old new : Record) : State :=
  if old.live = new.live ∧ old.state = new.state then s.setSlot i (.holding new)
  else
    let s' := s.setSlot i (.holding { new with sequence := old.sequence + 1 })
    if new.publish then s'.handUpdate i new.tag else s'

/-- A writer's owned count rises by 1 (R33). -/
def State.raiseOwned (s : State) (w : WriterNo) : State :=
  s.setWriter w { s.writer w with ownedCount := (s.writer w).ownedCount + 1 }

/-- A writer's owned count falls by 1 (R33). -/
def State.lowerOwned (s : State) (w : WriterNo) : State :=
  s.setWriter w { s.writer w with ownedCount := (s.writer w).ownedCount - 1 }

/-- The owned count of a record's owner, if it has one, falls by 1. -/
def State.lowerOwner (s : State) (owner : Option WriterNo) : State :=
  match owner with
  | some w => s.lowerOwned w
  | none => s

/-! ### Retirement (R13, R14, R15) -/

/-- A retired slot becomes VACATING when the record publishes and the link is not OFF, and FREE otherwise (R14). -/
def State.vacate (s : State) (i : SlotNo) (r : Record) : State :=
  if r.publish ∧ s.link.state ≠ .off then
    ({ s.setSlot i (.vacating r.tag r.sequence) with vacatingCount := s.vacatingCount + 1 }).handRetire i r.tag
  else { s.setSlot i .free with freeCount := s.freeCount + 1 }

/-- Retirement of the record in a slot: its tag leaves the index, its owner's count falls, and everything but a
VACATING slot's kept tag and sequence is gone (R13, R14). -/
def State.retireRecord (s : State) (i : SlotNo) (r : Record) : State :=
  (({ s with tagIndex := indexErase r.tag s.tagIndex }).lowerOwner r.owner).vacate i r

/-- The record in a slot, if any, is retired. -/
def State.retireSlot (s : State) (i : SlotNo) : State :=
  match s.slot i with
  | .holding r => s.retireRecord i r
  | _ => s

/-- Whether a slot is VACATING. -/
def Slot.isVacating : Slot → Bool
  | .vacating _ _ => true
  | _ => false

/-- A VACATING slot becomes FREE and gives up what it kept (R15). -/
def State.freeSlot (s : State) (i : SlotNo) : State :=
  if (s.slot i).isVacating then
    { s.setSlot i .free with freeCount := s.freeCount + 1, vacatingCount := s.vacatingCount - 1 }
  else s

/-! ### Loss of owner (R39, R40, R41) -/

/-- A record without its owner: staged entry discarded, countdown stopped (R39). -/
def Record.unowned (r : Record) : Record :=
  { r with owner := none, precedence := 0, staged := none, countdown := .stopped }

/-- What a loss of owner does to a hold with cause EXPIRY: LIVE while SAFE is released, cause SAFE while it is active;
its hold timer stops and its refreshed flag is removed (R40). -/
def Record.endExpiryHold (r : Record) (safeActive : Bool) : Record :=
  if r.state = .held ∧ r.holdCause = some .expiry then
    if safeActive then { r with holdCause := some .safe, refreshed := none, holdTimer := .stopped }
    else { r with state := .live, holdCause := none, refreshed := none, holdTimer := .stopped }
  else r

/-- Orphan policy FALLBACK: a record LIVE after the loss of owner takes its fallback value (R41). -/
def Record.toFallback (r : Record) : Record :=
  if r.orphan = .fallback ∧ r.state = .live then { r with live := some r.fallback } else r

/-- The record after a loss of owner under orphan policy KEEP or FALLBACK. -/
def Record.afterLoss (r : Record) (safeActive : Bool) : Record :=
  (r.unowned.endExpiryHold safeActive).toFallback

/-- The loss-of-owner path for the record in a slot (R39). -/
def State.loseOwner (s : State) (i : SlotNo) (r : Record) : State :=
  if r.orphan = .retire then s.retireRecord i r
  else (s.lowerOwner r.owner).changeRecord i r (r.afterLoss s.safeActive)

/-- The loss-of-owner path for the record in a slot, if it holds one. -/
def State.loseOwnerAt (s : State) (i : SlotNo) : State :=
  match s.slot i with
  | .holding r => s.loseOwner i r
  | _ => s

/-! ### Refresh (R67) -/

/-- The refresh effect of a STAGE or TOUCH on a record. -/
def Record.refresh (r : Record) : Record :=
  if r.state = .live ∧ r.freshnessCode ≠ 0 then { r with countdown := countdownFor r.freshnessCode }
  else if r.state = .held ∧ r.holdCause = some .expiry then { r with refreshed := some true }
  else r

/-! ### Scan cursors (R167) -/

/-- A port's cursor closes. -/
def State.closeCursor (s : State) (p : PortId) : State :=
  s.setPort p { s.port p with cursor := none }

/-- The cursor of a port closes if the named writer opened it (R38). -/
def State.closeCursorOf (s : State) (p : PortId) (w : WriterNo) : State :=
  match (s.port p).cursor with
  | some c => if c.writer = w then s.closeCursor p else s
  | none => s

/-! ### Dismissal (R38) -/

/-- The slots whose record a writer owns, ascending. -/
def State.ownedSlots (s : State) (w : WriterNo) : List SlotNo :=
  allSlots.filter (fun i => (s.slot i).record?.any (fun r => r.owner == some w))

/-- The dismissal path: every owned record loses its owner in ascending slot order, the writer's cursor closes, and the
writer becomes VACANT. -/
def State.dismissWriter (s : State) (w : WriterNo) : State :=
  let lost := (s.ownedSlots w).foldl State.loseOwnerAt s
  let closed :=
    match (s.writer w).binding with
    | some p => lost.closeCursorOf p w
    | none => lost
  closed.setWriter w { closed.writer w with binding := none }

/-- The lowest-numbered writer bound to a port (R48). -/
def State.lowestBound (s : State) (p : PortId) : Option WriterNo :=
  allWriters.find? (fun w => (s.writer w).binding = some p)

/-! ### Operations and the order of their checks (R153, R154) -/

/-- What applying one operation gives: its result and the part after it. -/
abbrev Applied := OpResult × State

/-- An operation refused: it carries a status and no data (10.3). -/
def refuse (status : Status) (s : State) : Applied :=
  ({ status := status, data := .empty }, s)

/-- An operation accepted: OK and its data. -/
def accept (data : Data) (s : State) : Applied :=
  ({ status := .ok, data := data }, s)

/-- One step of a check order: go on where the condition holds, otherwise refuse with the status. -/
def require (c : Prop) [Decidable c] (status : Status) (s : State) (next : Applied) : Applied :=
  if c then next else refuse status s

/-- The admission and port-binding steps (R32). -/
def admitted (p : PortId) (w : WriterNo) (s : State) (next : Applied) : Applied :=
  require ((s.writer w).binding ≠ none) .notAdmitted s <|
  require ((s.writer w).binding = some p) .wrongPort s next

/-- The tag lookup step (R9). -/
def onRecord (tag : Word16) (s : State) (next : SlotNo → Record → Applied) : Applied :=
  match s.find tag with
  | none => refuse .unknownTag s
  | some (i, r) => next i r

/-- The part after an operation command: its result stands in `result` (notes/assumptions/5.md). -/
def answered (a : Applied) : State :=
  { a.2 with result := some a.1 }

end Sys2Proof.Machine
end

