-- ==== Sys2Proof/Machine/Operands.lean ====
section
/-! DEFINITION. Operand bytes: the coded values of 10.1 and 10.3 and the ranges that an operation's BAD_OPERAND step
checks (R174). Each reading answers none for a byte outside its table. -/

namespace Sys2Proof.Machine

/-- A tag operand is in range: neither 0x0000 nor 0xFFFF (R9). -/
abbrev tagInRange (tag : Word16) : Prop :=
  tag ≠ 0x0000 ∧ tag ≠ 0xFFFF

/-- Yes or no: 1 yes, 0 no. -/
def yesNo? (b : Byte) : Option Bool :=
  if b = 0 then some false else if b = 1 then some true else none

/-- Hold policy: 0 RESUME, 1 LATCH. -/
def holdPolicy? (b : Byte) : Option HoldPolicy :=
  if b = 0 then some .resume else if b = 1 then some .latch else none

/-- Orphan policy: 0 KEEP, 1 FALLBACK, 2 RETIRE. -/
def orphanPolicy? (b : Byte) : Option OrphanPolicy :=
  if b = 0 then some .keep else if b = 1 then some .fallback else if b = 2 then some .retire else none

/-- Hold period code: 0 to 3. -/
def holdPeriod? (b : Byte) : Option (Fin 4) :=
  if h : b.toNat < 4 then some ⟨b.toNat, h⟩ else none

/-- Freshness code: 0 to 4095. -/
def freshness? (c : Word16) : Option Nat :=
  if c.toNat ≤ 4095 then some c.toNat else none

/-- A writer number: 0 to 7. -/
def writerNo? (b : Byte) : Option WriterNo :=
  if h : b.toNat < 8 then some ⟨b.toNat, h⟩ else none

/-- A group number: 1 to 15. -/
def groupNo? (b : Byte) : Option GroupNo :=
  if h : 1 ≤ b.toNat ∧ b.toNat ≤ 15 then some ⟨b.toNat - 1, by omega⟩ else none

/-- A group number or 0 for all groups: 0 to 15. -/
def commitTarget? (b : Byte) : Option CommitTarget :=
  if h : b.toNat < 16 then some ⟨b.toNat, h⟩ else none

/-- A trigger line: 0 or 1. -/
def triggerLine? (b : Byte) : Option TriggerLine :=
  if b = 0 then some .trg0 else if b = 1 then some .trg1 else none

/-- A rights byte: bits 6 and 7 name no right. -/
def rights? (b : Byte) : Option Rights :=
  if b.toNat < 64 then some (b.setWidth 6) else none

/-- A bit rate: 1, 2 or 4. -/
def bitRate? (b : Byte) : Option BitRate :=
  if b = 1 then some .mbit1 else if b = 2 then some .mbit2 else if b = 4 then some .mbit4 else none

/-- The owner byte of a scan filter: a writer, 0xFE for UNOWNED, 0xFF for ANY. -/
def ownerFilter? (b : Byte) : Option OwnerFilter :=
  if b = 0xFF then some .any else if b = 0xFE then some .unowned else (writerNo? b).map .writer

/-- The group byte of a scan filter: 1 to 15, or 0xFF for ANY. -/
def groupFilter? (b : Byte) : Option (Option GroupNo) :=
  if b = 0xFF then some none else (groupNo? b).map some

/-- The three filter bytes of a SCAN (R168). -/
def filter? (stateSet owner group : Byte) : Option Filter :=
  match ownerFilter? owner, groupFilter? group with
  | some o, some g =>
    if stateSet.toNat < 16 then some { states := stateSet.setWidth 4, owner := o, group := g } else none
  | _, _ => none

/-- A profile's operands (R45, step 2). -/
def profile? (rights ceiling : Byte) (quota : Word16) : Option Profile :=
  match rights? rights with
  | some r =>
    if ceiling.toNat ≤ 15 ∧ quota.toNat ≤ 256 then
      some { rights := r, ceiling := ceiling.toNat, quota := quota.toNat }
    else none
  | none => none

/-- The supervision settings of a CREATE or SET_SUPERVISION. -/
structure Supervision where
  freshnessCode : Nat
  holdPolicy : HoldPolicy
  holdPeriod : Fin 4
  orphan : OrphanPolicy
deriving DecidableEq, Repr

/-- The supervision operands (R84, R17). -/
def supervision? (freshness : Word16) (holdPolicy holdPeriod orphan : Byte) : Option Supervision :=
  match freshness? freshness, holdPolicy? holdPolicy, holdPeriod? holdPeriod, orphanPolicy? orphan with
  | some f, some p, some h, some o => some { freshnessCode := f, holdPolicy := p, holdPeriod := h, orphan := o }
  | _, _, _, _ => none

/-- The link settings of a SET_LINK (R142, step 2). -/
def linkSettings? (enable bitRate timeout retry : Byte) : Option LinkSettings :=
  match yesNo? enable, bitRate? bitRate with
  | some e, some r =>
    if 1 ≤ timeout.toNat ∧ timeout.toNat ≤ 15 ∧ retry.toNat ≤ 7 then
      some { enable := e, bitRate := r, timeoutCode := timeout.toNat, retryLimit := retry.toNat }
    else none
  | _, _ => none

/-- A value lies within limits, both included (R2). -/
abbrev within (lower upper v : Value) : Prop :=
  lower.toInt ≤ v.toInt ∧ v.toInt ≤ upper.toInt

/-- The operand checks of a CREATE (R17, step 2) and, where they pass, the record it writes: DORMANT, unowned, sequence
0, nothing present that is optional (R18). -/
def createRecord? (tag : Word16) (group : Byte) (lower upper fallback : Value) (clamp publish : Byte)
    (freshness : Word16) (holdPolicy holdPeriod orphan : Byte) : Option Record :=
  match groupNo? group, yesNo? clamp, yesNo? publish, supervision? freshness holdPolicy holdPeriod orphan with
  | some g, some c, some p, some v =>
    if tagInRange tag ∧ lower.toInt ≤ upper.toInt then
      some
        { tag := tag, state := .dormant, owner := none, precedence := 0, live := none, staged := none,
          fallback := fallback, lower := lower, upper := upper, clamp := c, publish := p, group := g,
          freshnessCode := v.freshnessCode, holdPolicy := v.holdPolicy, holdPeriod := v.holdPeriod,
          orphan := v.orphan, holdCause := none, refreshed := none, sequence := 0,
          countdown := .stopped, holdTimer := .stopped }
    else none
  | _, _, _, _ => none

end Sys2Proof.Machine
end

