-- ==== Sys2Proof/Machine/Claims.lean ====
section
/-! DEFINITION. Claims and precedence (chapter 3): CLAIM and RELEASE. -/

namespace Sys2Proof.Machine

/-- The freshness countdown that a claim or takeover leaves: started in full on a LIVE record, unchanged otherwise
(R52, R56). -/
def Record.claimCountdown (r : Record) : Timer :=
  if r.state = .live then countdownFor r.freshnessCode else r.countdown

/-- Claim of an unowned record (R52). -/
def State.claimUnowned (s : State) (i : SlotNo) (r : Record) (w : WriterNo) (prec : Nat) : State :=
  (s.raiseOwned w).changeRecord i r
    { r with owner := some w, precedence := prec, countdown := r.claimCountdown }

/-- Re-claim by the owner: the precedence alone changes (R53). -/
def State.reclaim (s : State) (i : SlotNo) (r : Record) (prec : Nat) : State :=
  s.changeRecord i r { r with precedence := prec }

/-- The record after a takeover: staged entry discarded, and on a hold with cause EXPIRY the refreshed flag no
(R55, R56). -/
def Record.takenOver (r : Record) (w : WriterNo) (prec : Nat) : Record :=
  { r with
    owner := some w
    precedence := prec
    staged := none
    refreshed := if r.state = .held ∧ r.holdCause = some .expiry then some false else r.refreshed
    countdown := r.claimCountdown }

/-- Takeover: the counts move, the record changes hands, and CLAIM_LOST goes to the old owner (R55, R57). -/
def State.takeOver (s : State) (i : SlotNo) (r : Record) (old w : WriterNo) (prec : Nat) : State :=
  (((s.lowerOwned old).raiseOwned w).changeRecord i r (r.takenOver w prec)).notifyWriter old
    (.claimLost r.tag w prec)

/-- CLAIM (R50 to R58). -/
def opClaim (p : PortId) (w : WriterNo) (tag : Word16) (precedence : Byte) (s : State) : Applied :=
  admitted p w s <|
  require ((s.profile w).ceiling ≠ 0) .noRight s <|
  require (1 ≤ precedence.toNat ∧ precedence.toNat ≤ 15 ∧ tagInRange tag) .badOperand s <|
  require (precedence.toNat ≤ (s.profile w).ceiling) .aboveCeiling s <|
  onRecord tag s fun i r =>
  match r.owner with
  | none =>
    require ((s.writer w).ownedCount ≠ (s.profile w).quota) .quotaFull s <|
    accept (.claimed i .new none 0) (s.claimUnowned i r w precedence.toNat)
  | some old =>
    if old = w then
      accept (.claimed i .reclaim (some w) r.precedence) (s.reclaim i r precedence.toNat)
    else if precedence.toNat = r.precedence then
      ({ status := .claimHeld, data := .holder old r.precedence }, s)
    else if precedence.toNat < r.precedence then
      ({ status := .outranked, data := .holder old r.precedence }, s)
    else
      require ((s.writer w).ownedCount ≠ (s.profile w).quota) .quotaFull s <|
      accept (.claimed i .takeover (some old) r.precedence) (s.takeOver i r old w precedence.toNat)

/-- RELEASE (R59, R60): the loss-of-owner path for one record. -/
def opRelease (p : PortId) (w : WriterNo) (tag : Word16) (s : State) : Applied :=
  admitted p w s <|
  require (tagInRange tag) .badOperand s <|
  onRecord tag s fun i r =>
  require (r.owner = some w) .notOwner s <|
  accept (.slotState i ((s.loseOwner i r).slot i).state) (s.loseOwner i r)

/-- CLAIM as a command. -/
def execClaim (p : PortId) (w : WriterNo) (tag : Word16) (precedence : Byte) (s : State) :
    Host.Outcome State Fault Refusal :=
  .next (answered (opClaim p w tag precedence s))

/-- RELEASE as a command. -/
def execRelease (p : PortId) (w : WriterNo) (tag : Word16) (s : State) : Host.Outcome State Fault Refusal :=
  .next (answered (opRelease p w tag s))

end Sys2Proof.Machine
end

