-- ==== Sys2Proof/Machine/Flags.lean ====
section
/-! DEFINITION. The sticky flags: the two of the SAFE state (R122) and the two of a command port (R158). The
notice-overflow flag is set where a notice arrives (`Port.notify`). -/

namespace Sys2Proof.Machine

/-- A commit source was refused or passed over because SAFE was active (R93, R101, R122). -/
def State.flagCommitRefused (s : State) : State :=
  s.setSafe { s.safe with commitRefused := true }

/-- STATUS clears both flags of the SAFE state (R171). -/
def State.clearSafeFlags (s : State) : State :=
  s.setSafe { s.safe with seenActive := false, commitRefused := false }

/-- A frame completed while the port was IN_SERVICE (R149). -/
def Port.flagOverrun (p : Port) : Port :=
  { p with overrun := true }

/-- A stored response is discarded when a frame is taken: unread, it sets the unread-discarded flag (R149). -/
def Port.discardStored (p : Port) : Port :=
  { p with stored := none, unreadDiscarded := p.unreadDiscarded || p.rdy }

/-- The flags a composed response reports are cleared (R156). -/
def Port.clearReported (p : Port) : Port :=
  { p with overrun := false, unreadDiscarded := false }

end Sys2Proof.Machine
end

