-- ==== Sys2Proof/Machine/Commits.lean ====
section
/-! DEFINITION. The Commit Unit (chapter 5): the commit; COMMIT, SET_CYCLE, SET_TRIGGER and READ_GROUP; the expiry of a
cycle timer and the rising edge of a trigger line. -/

namespace Sys2Proof.Machine

/-- Whether a commit concerns a group: target 0 concerns all fifteen (R88). -/
def concerns (t : CommitTarget) (g : GroupNo) : Bool :=
  t.val == 0 || t.val == g.val + 1

/-- The target that names one group. -/
def GroupNo.target (g : GroupNo) : CommitTarget :=
  g.succ

/-- The record after a commit of its group: DORMANT or LIVE with a staged entry takes the staged value and loses the
entry; every other record is skipped (R89). -/
def Record.committed (r : Record) : Record :=
  match r.state, r.staged with
  | .dormant, some e =>
    { r with state := .live, live := some e.value, staged := none, countdown := countdownFor r.freshnessCode }
  | .live, some e => { r with live := some e.value, staged := none }
  | _, _ => r

/-- Whether a commit counts a record as changed (R89, last column). -/
def Record.changedByCommit (r : Record) : Bool :=
  r.committed.state ≠ r.state || r.committed.live ≠ r.live

/-- The effect of a commit on one slot (R89). -/
def State.commitSlot (t : CommitTarget) (s : State) (i : SlotNo) : State :=
  match s.slot i with
  | .holding r => if concerns t r.group then s.changeRecord i r r.committed else s
  | _ => s

/-- The cycle timer of a group counts its whole period from now (R96); period 0 has no timer. -/
def GroupEntry.restart (e : GroupEntry) : GroupEntry :=
  { e with timer := if e.period = 0 then .stopped else .running (ms e.period.toNat) }

/-- A group entry after a commit that concerns it (R90). -/
def GroupEntry.afterCommit (e : GroupEntry) : GroupEntry :=
  { e with
    count := e.count + 1
    timer := if e.period = 0 then e.timer else .running (ms e.period.toNat) }

/-- The effect of a commit on one group entry (R90). -/
def State.commitGroup (t : CommitTarget) (s : State) (g : GroupNo) : State :=
  if concerns t g then s.setGroupEntry g (s.groupEntry g).afterCommit else s

/-- A commit: every concerned record in ascending slot order, then every concerned group entry (R89, R90). -/
def State.commit (s : State) (t : CommitTarget) : State :=
  allGroups.foldl (State.commitGroup t) (allSlots.foldl (State.commitSlot t) s)

/-- The changed count of a commit (R90). -/
def State.changedCount (s : State) (t : CommitTarget) : Nat :=
  (allSlots.filter (fun i =>
    (s.slot i).record?.any (fun r => concerns t r.group && r.changedByCommit))).length

/-- The group whose commit count COMMIT reports: the named group, group 1 for target 0 (R94). -/
def reportedGroup (t : CommitTarget) : GroupNo :=
  ⟨t.val - 1, by omega⟩

/-- COMMIT (R93, R94). -/
def opCommit (p : PortId) (w : WriterNo) (group : Byte) (s : State) : Applied :=
  admitted p w s <|
  require ((s.profile w).holds .commit) .noRight s <|
  match commitTarget? group with
  | none => refuse .badOperand s
  | some t =>
    if s.safeActive then refuse .safeActive s.flagCommitRefused
    else
      accept (.committed (s.changedCount t) ((s.commit t).groupEntry (reportedGroup t)).count) (s.commit t)

/-- SET_CYCLE (R96, R98). -/
def opSetCycle (p : PortId) (w : WriterNo) (group period : Byte) (s : State) : Applied :=
  admitted p w s <|
  require ((s.profile w).holds .commit) .noRight s <|
  match groupNo? group with
  | none => refuse .badOperand s
  | some g =>
    let e := { s.groupEntry g with period := period }
    accept (.previousPeriod (s.groupEntry g).period)
      (s.setGroupEntry g (if s.safeActive then { e with timer := .stopped } else e.restart))

/-- SET_TRIGGER (R102). -/
def opSetTrigger (p : PortId) (w : WriterNo) (line enabled group : Byte) (s : State) : Applied :=
  admitted p w s <|
  require (w = 0) .noRight s <|
  match triggerLine? line, yesNo? enabled, commitTarget? group with
  | some l, some e, some t =>
    accept (.previousTrigger (s.trigger l)) (s.setTrigger l { enabled := e, group := t })
  | _, _, _ => refuse .badOperand s

/-- The slots whose record belongs to a group, ascending. -/
def State.members (s : State) (g : GroupNo) : List SlotNo :=
  allSlots.filter (fun i => (s.slot i).record?.any (fun r => r.group == g))

/-- The members of a group that hold a staged entry. -/
def State.stagedMembers (s : State) (g : GroupNo) : List SlotNo :=
  allSlots.filter (fun i => (s.slot i).record?.any (fun r => r.group == g && r.staged.isSome))

/-- READ_GROUP (R103). -/
def opReadGroup (p : PortId) (w : WriterNo) (group : Byte) (s : State) : Applied :=
  admitted p w s <|
  match groupNo? group with
  | none => refuse .badOperand s
  | some g =>
    accept
      (.group g (s.groupEntry g) (s.members g).length (s.stagedMembers g).length s.trg0 s.trg1) s

/-- CYCLE_TIMER_EXPIRY (R96): a commit of the group, whose restart is that of R90. A stopped timer does not expire. -/
def State.cycleExpiry (s : State) (g : GroupNo) : State :=
  if (s.groupEntry g).timer = .stopped then s else s.commit (GroupNo.target g)

/-- RISING_EDGE (R100, R101): a commit of the entry's group; passed over when the entry is not enabled; not acted on,
with the commit-refused flag set, while SAFE is active. -/
def State.risingEdge (s : State) (l : TriggerLine) : State :=
  if (s.trigger l).enabled then
    if s.safeActive then s.flagCommitRefused else s.commit (s.trigger l).group
  else s

/-- COMMIT as a command. -/
def execCommit (p : PortId) (w : WriterNo) (group : Byte) (s : State) : Host.Outcome State Fault Refusal :=
  .next (answered (opCommit p w group s))

/-- SET_CYCLE as a command. -/
def execSetCycle (p : PortId) (w : WriterNo) (group period : Byte) (s : State) : Host.Outcome State Fault Refusal :=
  .next (answered (opSetCycle p w group period s))

/-- SET_TRIGGER as a command. -/
def execSetTrigger (p : PortId) (w : WriterNo) (line enabled group : Byte) (s : State) :
    Host.Outcome State Fault Refusal :=
  .next (answered (opSetTrigger p w line enabled group s))

/-- READ_GROUP as a command. -/
def execReadGroup (p : PortId) (w : WriterNo) (group : Byte) (s : State) : Host.Outcome State Fault Refusal :=
  .next (answered (opReadGroup p w group s))

/-- CYCLE_TIMER_EXPIRY. -/
def execCycleTimerExpiry (group : GroupNo) (s : State) : Host.Outcome State Fault Refusal :=
  .next (s.cycleExpiry group)

/-- RISING_EDGE. -/
def execRisingEdge (line : TriggerLine) (s : State) : Host.Outcome State Fault Refusal :=
  .next (s.risingEdge line)

end Sys2Proof.Machine
end

