-- ==== Sys2Proof/Machine/Frames.lean ====
section
/-! DEFINITION. The bytes of chapter 10: the CRC-16 (10.7), request frames read and written (R151, 10.2, 10.3),
responses (10.4, 10.5) and publication frames (10.6, R175). Every multi-byte field is sent most significant byte
first. -/

namespace Sys2Proof.Machine

/-! ### Multi-byte fields -/

/-- The two bytes of a 16-bit field. -/
def bytes16 (x : Word16) : List Byte :=
  [x.extractLsb' 8 8, x.extractLsb' 0 8]

/-- The four bytes of a 32-bit field. -/
def bytes32 (x : Value) : List Byte :=
  [x.extractLsb' 24 8, x.extractLsb' 16 8, x.extractLsb' 8 8, x.extractLsb' 0 8]

/-- A 16-bit field from its two bytes. -/
def word16 (hi lo : Byte) : Word16 :=
  hi ++ lo

/-- A 32-bit field from its four bytes. -/
def word32 (b3 b2 b1 b0 : Byte) : Value :=
  (b3 ++ b2 ++ (b1 ++ b0 : BitVec 16) : BitVec 32)

/-- A count as a 16-bit field. -/
def count16 (n : Nat) : List Byte :=
  bytes16 (BitVec.ofNat 16 n)

/-- A number as one byte. -/
def byte (n : Nat) : Byte :=
  BitVec.ofNat 8 n

/-- Yes or no: 1 yes, 0 no (10.1). -/
def yesNoByte (b : Bool) : Byte :=
  if b then 1 else 0

/-- A byte of flags, bit 0 first. The bits that the tables of 10.3 to 10.5 assign to nothing are sent as 0, which the
manual does not say (notes/assumptions/20.md). -/
def flagByte : List Bool → Byte
  | [] => 0
  | b :: rest => (flagByte rest <<< 1) ||| yesNoByte b

/-! ### The CRC-16 (10.7) -/

/-- One shift of the register: the generator 0x1021 is combined when the bit shifted out is 1. -/
def crcShift (c : Word16) : Word16 :=
  if c.msb then (c <<< 1) ^^^ 0x1021 else c <<< 1

/-- `n` shifts of the register. -/
def crcShifts : Nat → Word16 → Word16
  | 0, c => c
  | n + 1, c => crcShifts n (crcShift c)

/-- One byte, most significant bit first: into the top of the register, then eight shifts. -/
def crcByte (c : Word16) (b : Byte) : Word16 :=
  crcShifts 8 (c ^^^ (b ++ (0 : Byte) : BitVec 16))

/-- The CRC-16 of a list of bytes: initial value 0xFFFF, no final inversion. -/
def crc16 (bs : List Byte) : Word16 :=
  bs.foldl crcByte 0xFFFF

/-- Bytes closed by their CRC. -/
def withCrc (bs : List Byte) : List Byte :=
  bs ++ bytes16 (crc16 bs)

/-! ### Codes (10.1, 10.4) -/

/-- Slot state codes. -/
def SlotState.code : SlotState → Byte
  | .free => 0
  | .vacating => 1
  | .dormant => 2
  | .live => 3
  | .held => 4
  | .latched => 5

/-- A writer number, 0xFF where absent. -/
def ownerByte : Option WriterNo → Byte
  | some w => byte w.val
  | none => 0xFF

/-- A port, 0xFF where absent. -/
def portByte : Option PortId → Byte
  | some .a => 0
  | some .b => 1
  | none => 0xFF

/-- Orphan policy codes. -/
def OrphanPolicy.code : OrphanPolicy → Byte
  | .keep => 0
  | .fallback => 1
  | .retire => 2

/-- Link state codes. -/
def LinkState.code : LinkState → Byte
  | .off => 0
  | .idle => 1
  | .sending => 2
  | .awaitingAck => 3
  | .down => 4

/-- SAFE level codes. -/
def SafeLevel.code : SafeLevel → Byte
  | .released => 0
  | .active => 1

/-- Cycle timer codes: 0 STOPPED, 1 RUNNING. -/
def Timer.code : Timer → Byte
  | .stopped => 0
  | .running _ => 1

/-- Bit rate operands: 1, 2 or 4. -/
def BitRate.code : BitRate → Byte
  | .mbit1 => 1
  | .mbit2 => 2
  | .mbit4 => 4

/-- Claim kind codes. -/
def ClaimKind.code : ClaimKind → Byte
  | .new => 0
  | .reclaim => 1
  | .takeover => 2

/-- TOUCH effect codes. -/
def TouchEffect.code : TouchEffect → Byte
  | .none => 0
  | .restarted => 1
  | .refreshed => 2

/-- Status codes (10.4). -/
def Status.code : Status → Byte
  | .ok => 0
  | .skipped => 1
  | .notAdmitted => 2
  | .wrongPort => 3
  | .alreadyAdmitted => 4
  | .noRight => 5
  | .badOperand => 6
  | .unknownTag => 7
  | .duplicateTag => 8
  | .tableFull => 9
  | .notOwner => 10
  | .claimHeld => 11
  | .outranked => 12
  | .aboveCeiling => 13
  | .quotaFull => 14
  | .outOfRange => 15
  | .limitConflict => 16
  | .badState => 17
  | .safeActive => 18
  | .writerBusy => 19
  | .writerPresent => 20
  | .noCursor => 21
  | .linkState => 22

/-- Frame status codes (10.4). -/
def FrameStatus.code : FrameStatus → Byte
  | .ok => 0
  | .crcError => 1
  | .malformed => 2
  | .duplicate => 3
  | .none => 4

/-! ### Views and results (10.3, 10.5) -/

/-- A value that may be absent; absent is sent as 0 (R174). -/
def valueBytes (v : Option Value) : List Byte :=
  bytes32 (v.getD 0)

/-- The 35 bytes of a record description (10.5). The flags that qualify an absent field are clear
(notes/assumptions/21.md). -/
def Description.bytes (d : Description) : List Byte :=
  [byte d.slot.val] ++ bytes16 d.tag ++
  [ d.state.slotState.code,
    flagByte [d.live.isSome, d.staged.isSome, d.staged.any Staged.clamped, d.holdCause.isSome,
      d.holdCause == some .safe, d.refreshed.isSome, d.refreshed == some true],
    ownerByte d.owner, byte d.precedence ] ++
  valueBytes d.live ++ valueBytes (d.staged.map Staged.value) ++ bytes32 d.fallback ++ bytes32 d.lower ++
  bytes32 d.upper ++
  [ flagByte [d.clamp, d.publish, d.holdPolicy == .latch, d.pending], byte (d.group.val + 1) ] ++
  count16 d.freshnessCode ++ [byte d.holdPeriod.val, d.orphan.code] ++ bytes16 d.sequence

/-- The 14 bytes of a short view (10.5), its flags as in a record description. -/
def ShortView.bytes (v : ShortView) : List Byte :=
  [byte v.slot.val] ++ bytes16 v.tag ++
  [ v.state.slotState.code, ownerByte v.owner, byte v.precedence, byte (v.group.val + 1),
    flagByte [v.live.isSome, v.staged, v.holdCause.isSome, v.holdCause == some .safe] ] ++
  valueBytes v.live ++ bytes16 v.sequence

/-- The 6 bytes of a notice entry: kind, tag, writer, precedence, level; an absent field is sent as 0 (10.5). -/
def Notice.bytes : Notice → List Byte
  | .claimLost tag w prec => [1] ++ bytes16 tag ++ [byte w.val, byte prec, 0]
  | .holdEntered tag => [2] ++ bytes16 tag ++ [0, 0, 0]
  | .latched tag => [3] ++ bytes16 tag ++ [0, 0, 0]
  | .resumed tag => [4] ++ bytes16 tag ++ [0, 0, 0]
  | .safeChanged level => [5, 0, 0, 0, 0, level.code]
  | .linkDown => [6, 0, 0, 0, 0, 0]

/-- The two bytes of a trigger-line entry. -/
def TriggerEntry.bytes (t : TriggerEntry) : List Byte :=
  [yesNoByte t.enabled, byte t.group.val]

/-- The data bytes of a result (10.3). -/
def Data.bytes : Data → List Byte
  | .empty => []
  | .dismissed n r => count16 n ++ count16 r
  | .profile w f x =>
    [byte w.val, f.rights.setWidth 8, byte f.ceiling] ++ count16 f.quota ++
      [yesNoByte x.binding.isSome, portByte x.binding] ++ count16 x.ownedCount
  | .slot i => [byte i.val]
  | .slotState i st => [byte i.val, st.code]
  | .description d => d.bytes
  | .claimed i k o q => [byte i.val, k.code, ownerByte o, byte q]
  | .holder o q => [byte o.val, byte q]
  | .staged i v c => [byte i.val] ++ bytes32 v ++ [yesNoByte c]
  | .touched i e => [byte i.val, e.code]
  | .outside f l g => [flagByte [f, l, g]]
  | .fallbackSet i c => [byte i.val, yesNoByte c]
  | .regrouped i g => [byte i.val, byte (g.val + 1)]
  | .committed n c => count16 n ++ bytes16 c
  | .previousPeriod d => [d]
  | .previousTrigger t => t.bytes
  | .group g e m n t0 t1 =>
    [byte (g.val + 1), e.period, e.timer.code] ++ bytes16 e.count ++ count16 m ++ count16 n ++ t0.bytes ++ t1.bytes
  | .entries n => count16 n
  | .flushed n f => count16 n ++ count16 f
  | .previousLink l after =>
    [yesNoByte l.enable, l.bitRate.code, byte l.timeoutCode, byte l.retryLimit, after.code]
  | .views atEnd next vs => [byte vs.length, yesNoByte atEnd] ++ count16 next ++ vs.flatMap ShortView.bytes
  | .notices overflow left ns => [byte ns.length, yesNoByte overflow, byte left] ++ ns.flatMap Notice.bytes
  | .status level seen refused link pending free vacating bindings =>
    [level.code, flagByte [seen, refused], link.code] ++ count16 pending ++ count16 free ++ count16 vacating ++
      bindings.map portByte
  | .cleared n v => count16 n ++ count16 v

/-- The bytes of one result: status, data length, data (10.4). -/
def OpResult.bytes (r : OpResult) : List Byte :=
  [r.status.code, byte r.data.bytes.length] ++ r.data.bytes

/-- The bytes of a response (10.4); the length counts from itself to the CRC. -/
def Response.bytes (r : Response) : List Byte :=
  let results := r.results.flatMap OpResult.bytes
  withCrc
    (count16 (results.length + 9) ++
      [ r.sequence, r.status.code, flagByte [r.overrun, r.previousUnread, r.noticeOverflow], byte r.noticeCount,
        byte r.results.length ] ++ results)

/-! ### Request frames (R151, 10.2, 10.3) -/

/-- The identifier of an operation (10.3). -/
def Op.identifier : Op → Byte
  | .admitWriter => 1
  | .dismiss _ => 2
  | .setProfile _ _ _ _ => 3
  | .readProfile _ => 4
  | .create _ _ _ _ _ _ _ _ _ _ _ => 5
  | .retire _ => 6
  | .read _ => 7
  | .claim _ _ => 8
  | .release _ => 9
  | .stage _ _ => 10
  | .touch _ => 11
  | .unlatch _ => 12
  | .setLimits _ _ _ => 13
  | .setFallback _ _ => 14
  | .setSupervision _ _ _ _ _ => 15
  | .setGroup _ _ => 16
  | .commit _ => 17
  | .setCycle _ _ => 18
  | .setTrigger _ _ _ => 19
  | .readGroup _ => 20
  | .linkStart => 21
  | .linkFlush => 22
  | .resync => 23
  | .setLink _ _ _ _ => 24
  | .scan _ _ _ => 25
  | .scanNext => 26
  | .poll => 27
  | .status => 28
  | .clearTable => 29

/-- The operand bytes of an operation, as an agent sends them (10.3). -/
def Op.operands : Op → List Byte
  | .admitWriter => []
  | .dismiss t => [t]
  | .setProfile t r c q => [t, r, c] ++ bytes16 q
  | .readProfile t => [t]
  | .create tag g lo hi fb c p f hp hd o =>
    bytes16 tag ++ [g] ++ bytes32 lo ++ bytes32 hi ++ bytes32 fb ++ [c, p] ++ bytes16 f ++ [hp, hd, o]
  | .retire tag => bytes16 tag
  | .read tag => bytes16 tag
  | .claim tag q => bytes16 tag ++ [q]
  | .release tag => bytes16 tag
  | .stage tag v => bytes16 tag ++ bytes32 v
  | .touch tag => bytes16 tag
  | .unlatch tag => bytes16 tag
  | .setLimits tag lo hi => bytes16 tag ++ bytes32 lo ++ bytes32 hi
  | .setFallback tag v => bytes16 tag ++ bytes32 v
  | .setSupervision tag f hp hd o => bytes16 tag ++ bytes16 f ++ [hp, hd, o]
  | .setGroup tag g => bytes16 tag ++ [g]
  | .commit g => [g]
  | .setCycle g d => [g, d]
  | .setTrigger l e g => [l, e, g]
  | .readGroup g => [g]
  | .linkStart => []
  | .linkFlush => []
  | .resync => []
  | .setLink e b t r => [e, b, t, r]
  | .scan st o g => [st, o, g]
  | .scanNext => []
  | .poll => []
  | .status => []
  | .clearTable => []

/-- An operation entry: identifier, operand length, operands (10.2). -/
def Op.entryBytes (o : Op) : List Byte :=
  [o.identifier, byte o.operands.length] ++ o.operands

/-- An operation whose operands are one tag. -/
def tagOp (make : Word16 → Op) : List Byte → Option Op
  | [a, b] => some (make (word16 a b))
  | _ => none

/-- An operation whose operand is one byte. -/
def byteOp (make : Byte → Op) : List Byte → Option Op
  | [a] => some (make a)
  | _ => none

/-- An operation without operands. -/
def plainOp (op : Op) : List Byte → Option Op
  | [] => some op
  | _ => none

/-- An operation whose operands are three bytes. -/
def threeOp (make : Byte → Byte → Byte → Op) : List Byte → Option Op
  | [a, b, c] => some (make a b c)
  | _ => none

/-- An operation whose operands are a tag and a 32-bit value. -/
def tagValueOp (make : Word16 → Value → Op) : List Byte → Option Op
  | [a, b, v3, v2, v1, v0] => some (make (word16 a b) (word32 v3 v2 v1 v0))
  | _ => none

/-- An operation whose operands are a tag and one byte. -/
def tagByteOp (make : Word16 → Byte → Op) : List Byte → Option Op
  | [a, b, c] => some (make (word16 a b) c)
  | _ => none

/-- The operands of SET_PROFILE. -/
def readSetProfile : List Byte → Option Op
  | [t, r, c, q1, q0] => some (.setProfile t r c (word16 q1 q0))
  | _ => none

/-- The operands of CREATE. -/
def readCreate : List Byte → Option Op
  | [t1, t0, g, l3, l2, l1, l0, u3, u2, u1, u0, f3, f2, f1, f0, c, p, s1, s0, hp, hd, o] =>
    some (.create (word16 t1 t0) g (word32 l3 l2 l1 l0) (word32 u3 u2 u1 u0) (word32 f3 f2 f1 f0) c p
      (word16 s1 s0) hp hd o)
  | _ => none

/-- The operands of SET_LIMITS. -/
def readSetLimits : List Byte → Option Op
  | [t1, t0, l3, l2, l1, l0, u3, u2, u1, u0] =>
    some (.setLimits (word16 t1 t0) (word32 l3 l2 l1 l0) (word32 u3 u2 u1 u0))
  | _ => none

/-- The operands of SET_SUPERVISION. -/
def readSetSupervision : List Byte → Option Op
  | [t1, t0, s1, s0, hp, hd, o] => some (.setSupervision (word16 t1 t0) (word16 s1 s0) hp hd o)
  | _ => none

/-- The operands of SET_CYCLE. -/
def readSetCycle : List Byte → Option Op
  | [g, d] => some (.setCycle g d)
  | _ => none

/-- The operands of SET_LINK. -/
def readSetLink : List Byte → Option Op
  | [e, b, t, r] => some (.setLink e b t r)
  | _ => none

/-- The operation an identifier names, read from exactly its operand bytes; none for an identifier that names no
operation or another operand length (R151). -/
def readOp (identifier : Nat) (operands : List Byte) : Option Op :=
  match identifier with
  | 1 => plainOp .admitWriter operands
  | 2 => byteOp .dismiss operands
  | 3 => readSetProfile operands
  | 4 => byteOp .readProfile operands
  | 5 => readCreate operands
  | 6 => tagOp .retire operands
  | 7 => tagOp .read operands
  | 8 => tagByteOp .claim operands
  | 9 => tagOp .release operands
  | 10 => tagValueOp .stage operands
  | 11 => tagOp .touch operands
  | 12 => tagOp .unlatch operands
  | 13 => readSetLimits operands
  | 14 => tagValueOp .setFallback operands
  | 15 => readSetSupervision operands
  | 16 => tagByteOp .setGroup operands
  | 17 => byteOp .commit operands
  | 18 => readSetCycle operands
  | 19 => threeOp .setTrigger operands
  | 20 => byteOp .readGroup operands
  | 21 => plainOp .linkStart operands
  | 22 => plainOp .linkFlush operands
  | 23 => plainOp .resync operands
  | 24 => readSetLink operands
  | 25 => threeOp .scan operands
  | 26 => plainOp .scanNext operands
  | 27 => plainOp .poll operands
  | 28 => plainOp .status operands
  | 29 => plainOp .clearTable operands
  | _ => none

/-- Exactly so many operation entries that fill the bytes exactly (R151). -/
def readEntries : Nat → List Byte → Option (List Op)
  | 0, [] => some []
  | 0, _ => none
  | n + 1, identifier :: len :: rest =>
    if len.toNat ≤ rest.length then
      match readOp identifier.toNat (rest.take len.toNat), readEntries n (rest.drop len.toNat) with
      | some op, some ops => some (op :: ops)
      | _, _ => none
    else none
  | _ + 1, _ => none

/-- SCAN, SCAN_NEXT and POLL must be the only operation of their frame (R151). -/
def Op.alone : Op → Bool
  | .scan _ _ _ => true
  | .scanNext => true
  | .poll => true
  | _ => false

/-- A batch that a frame may carry: one to eight operations, and an operation that must stand alone stands alone
(R151). -/
def batchOk (ops : List Op) : Bool :=
  1 ≤ ops.length && ops.length ≤ 8 && (ops.length == 1 || ops.all (fun o => !o.alone))

/-- The writer and batch of frame bytes whose CRC is correct; none where the frame is MALFORMED (R151). -/
def readFrame (bytes : List Byte) : Option (WriterNo × List Op) :=
  match bytes with
  | len :: _ :: writer :: count :: rest =>
    if len.toNat = bytes.length ∧ 6 ≤ len.toNat ∧ len.toNat ≤ 240 then
      match writerNo? writer, readEntries count.toNat (rest.take (rest.length - 2)) with
      | some w, some ops => if batchOk ops then some (w, ops) else none
      | _, _ => none
    else none
  | _ => none

/-- The CRC field of frame bytes: their last two, most significant first. -/
def frameCrc (bytes : List Byte) : Word16 :=
  word16 ((bytes[bytes.length - 2]?).getD 0) ((bytes[bytes.length - 1]?).getD 0)

/-- The sequence field as received, 0 when fewer than 2 frame bytes were received (R156). -/
def frameSequence (bytes : List Byte) : Byte :=
  (bytes[1]?).getD 0

/-- Whether a frame repeats the last one applied on its port (R150, step 4). -/
def isDuplicate (memory : Option DuplicateMemory) (bytes : List Byte) : Bool :=
  match memory with
  | some m => m.sequence == frameSequence bytes && m.crc == frameCrc bytes
  | none => false

/-- The judgement of a taken frame, in the order of R150. -/
def judgeFrame (memory : Option DuplicateMemory) (bytes : List Byte) : Judgement :=
  if 240 < bytes.length then .malformed
  else if bytes.length < 3 ∨ frameCrc bytes ≠ crc16 (bytes.take (bytes.length - 2)) then .crcError
  else
    match readFrame bytes with
    | none => .malformed
    | some (w, ops) => if isDuplicate memory bytes then .duplicate else .ok w ops

/-- The frame an agent sends for a batch (10.2): length, sequence, writer, operation count, entries, CRC. -/
def requestFrame (sequence : Byte) (w : WriterNo) (ops : List Op) : List Byte :=
  let entries := ops.flatMap Op.entryBytes
  withCrc ([byte (entries.length + 6), sequence, byte w.val, byte ops.length] ++ entries)

/-! ### Publication frames (10.6, R175) -/

/-- Publication kind codes. -/
def EntryKind.code : EntryKind → Byte
  | .update => 0
  | .retire => 1

/-- The eleven bytes of a publication frame that its CRC covers. -/
def PubFrame.body (f : PubFrame) : List Byte :=
  [f.number, f.kind.code] ++ bytes16 f.tag ++ bytes16 f.sequence ++ [f.state.code] ++ bytes32 f.value

/-- The 14 bytes of a publication frame: start byte, body, CRC (10.6). -/
def PubFrame.bytes (f : PubFrame) : List Byte :=
  0x7E :: withCrc f.body

/-- A byte on TXP: a start bit at low level, eight data bits least significant first, a stop bit at high level (R175). -/
def lineBits (b : Byte) : List Bool :=
  [false, b.getLsbD 0, b.getLsbD 1, b.getLsbD 2, b.getLsbD 3, b.getLsbD 4, b.getLsbD 5, b.getLsbD 6, b.getLsbD 7, true]

/-- The 140 bits of a transmission on TXP (R175). -/
def PubFrame.txpBits (f : PubFrame) : List Bool :=
  f.bytes.flatMap lineBits

end Sys2Proof.Machine
end

