-- ==== Sys2Proof/Machine/Link.lean ====
section
/-! DEFINITION. The Publication Link (chapter 7): the send event, the end of a transmission, acknowledgements, retries
and going DOWN; LINK_START, LINK_FLUSH, RESYNC, SET_LINK; the bytes received on RXP (R176). -/

namespace Sys2Proof.Machine

/-! ### Sending (R129, R131) -/

/-- The slot state with a number, modulo 6, in the order of the codes of 10.1. -/
def slotStateOf (n : Nat) : SlotState :=
  match n % 6 with
  | 0 => .free
  | 1 => .vacating
  | 2 => .dormant
  | 3 => .live
  | 4 => .held
  | _ => .latched

/-- The frame latched for an entry from what its slot holds (R129). An UPDATE entry's slot holds a LIVE, HELD or
LATCHED record and a RETIRE entry's slot is VACATING (R127), but for one case: an entry that going DOWN returned for a
record that does not publish outlives that record (R136, R14). What the manual then leaves unstated is a free value,
drawn by `n` (notes/assumptions/13.md). -/
def latchFrame (n : Nat) (number : Byte) (e : Entry) (x : Slot) : PubFrame :=
  match e.kind, x with
  | .update, .holding r =>
    { number := number, kind := .update, tag := r.tag, sequence := r.sequence, state := r.state.slotState,
      value := r.live.getD (Config.unstatedValue n) }
  | .retire, .vacating tag seq =>
    { number := number, kind := .retire, tag := tag, sequence := seq, state := .vacating, value := 0 }
  | kind, _ =>
    { number := number, kind := kind, tag := e.tag, sequence := Config.unstatedSequence n,
      state := slotStateOf (Config.unstatedState n), value := Config.unstatedValue n }

/-- SEND_EVENT (R129): taken when the link is IDLE and the queue is not empty. The count of free choices advances,
since the frame may hold free values. -/
def State.sendEvent (s : State) : State :=
  match s.link.state, s.link.queue with
  | .idle, e :: rest =>
    { s with
      choices := s.choices + 1
      link := { s.link with
        state := .sending
        queue := rest
        inFlight := some
          { frame := latchFrame s.choices s.link.nextNumber e (s.slot e.slot), entry := e, retries := 0 }
        nextNumber := s.link.nextNumber + 1
        noted := false
        transmission := transmissionAt s.link.settings.bitRate } }
  | _, _ => s

/-- The frame in flight is complete (R132): a RETIRE frame's slot becomes FREE, and the link returns to IDLE. -/
def State.completeFrame (s : State) (f : InFlight) : State :=
  let s' :=
    if f.entry.kind = .retire ∧ s.pendingAt f.entry.slot = false then s.freeSlot f.entry.slot else s
  s'.setLink { s'.link with
    state := .idle, inFlight := none, noted := false, ackTimer := .stopped, transmission := .stopped }

/-- END_OF_TRANSMISSION (R131): the acknowledgement timer starts, or the frame is complete when an acknowledgement was
noted. -/
def State.endOfTransmission (s : State) : State :=
  match s.link.state, s.link.inFlight with
  | .sending, some f =>
    if s.link.noted then s.completeFrame f
    else
      s.setLink { s.link with
        state := .awaitingAck
        ackTimer := .running (quarterMs s.link.settings.timeoutCode)
        transmission := .stopped }
  | _, _ => s

/-- The level of TXP, high for yes: while a transmission runs, the bit of the frame in flight that its elapsed time has
reached, at the rate it began with; high between transmissions and after one is cut off (R175). -/
def Link.txp (l : Link) : Bool :=
  match l.inFlight, l.transmission with
  | some f, .running remaining rate =>
    (f.frame.txpBits[(transmissionTime rate - remaining) / bitTime rate]?).getD true
  | _, _ => true

/-! ### Failed transmissions (R133, R136) -/

/-- Whether a slot holds a record in LIVE, HELD or LATCHED under a tag (R136, step 2). -/
def Slot.publishes (x : Slot) (tag : Word16) : Bool :=
  match x with
  | .holding r => r.tag == tag && r.state != .dormant
  | _ => false

/-- The queue after the entry of an abandoned frame is returned to its head, or dropped (R136, step 2). -/
def State.returnedQueue (s : State) (e : Entry) : List Entry :=
  if s.pendingAt e.slot then s.link.queue
  else if e.kind = .update ∧ (s.slot e.slot).publishes e.tag = false then s.link.queue
  else e :: s.link.queue

/-- Going DOWN (R136, R137). -/
def State.goDown (s : State) (f : InFlight) : State :=
  (s.setLink { s.link with
    state := .down
    queue := s.returnedQueue f.entry
    inFlight := none
    noted := false
    ackTimer := .stopped
    transmission := .stopped }).notifyBoth .linkDown

/-- A failed transmission (R133): a retransmission while a retry is left, otherwise the link goes DOWN. -/
def State.failTransmission (s : State) (f : InFlight) : State :=
  if f.retries < s.link.settings.retryLimit then
    s.setLink { s.link with
      state := .sending
      inFlight := some { f with retries := f.retries + 1 }
      ackTimer := .stopped
      transmission := transmissionAt s.link.settings.bitRate }
  else s.goDown f

/-- ACKNOWLEDGEMENT_TIMER_EXPIRY (R133): the timer runs in AWAITING_ACK alone. -/
def State.ackTimerExpiry (s : State) : State :=
  match s.link.state, s.link.inFlight with
  | .awaitingAck, some f => s.failTransmission f
  | _, _ => s

/-! ### Acknowledgements (R134, R176) -/

/-- The kind byte of an ACK (10.6). -/
def ackByte : Byte :=
  0x06

/-- The kind byte of a NAK (10.6). -/
def nakByte : Byte :=
  0x15

/-- A two-byte acknowledgement is judged by its kind, its number and the link state (R134). -/
def State.judgeAck (s : State) (kind number : Byte) : State :=
  match s.link.inFlight with
  | none => s
  | some f =>
    if f.frame.number ≠ number then s
    else
      match s.link.state with
      | .awaitingAck =>
        if kind = ackByte then s.completeFrame f
        else if kind = nakByte then s.failTransmission f
        else s
      | .sending =>
        if f.retries ≠ 0 ∧ kind = ackByte then s.setLink { s.link with noted := true } else s
      | _ => s

/-- The part with the open acknowledgement byte replaced. -/
def State.setOpenByte (s : State) (b : Option OpenByte) : State :=
  s.setLink { s.link with openByte := b }

/-- ACKNOWLEDGEMENT: two bytes received in time, judged as one; no byte stays open (R134, R176;
notes/assumptions/12.md). -/
def State.acknowledgement (s : State) (kind number : Byte) : State :=
  if s.link.state = .off then s else (s.setOpenByte none).judgeAck kind number

/-- The part with a byte just received as its open acknowledgement byte. -/
def State.openAck (s : State) (byte : Byte) : State :=
  s.setOpenByte (some { kind := byte, age := 0 })

/-- Whether a byte comes too late to complete an open byte: its start bit came more than 20 bit times after the end of
the open byte's stop bit, at the bit rate that the start bit saw (R176). -/
def OpenByte.missedBy (o : OpenByte) (r : Reception) : Bool :=
  decide (ackWindow r.rate < o.age - r.age)

/-- RXP_BYTE at the start bit: the link's bit rate as it stands is the byte's (R176). While another byte is under way a low
bit is no start bit (notes/assumptions/4.md). -/
def State.beginByte (s : State) : State :=
  match s.rxp with
  | none => { s with rxp := some { rate := s.link.settings.bitRate, age := 0 } }
  | some _ => s

/-- The byte that ends now: the one under way; where no start bit was noted, the command stands for the whole byte, which
began ten bit times ago at the link's bit rate (notes/assumptions/12.md). -/
def State.reception (s : State) : Reception :=
  match s.rxp with
  | some r => r
  | none => { rate := s.link.settings.bitRate, age := byteTime s.link.settings.bitRate }

/-- A byte received (R176): dropped while the link is OFF or its stop bit is low, the latter with any open byte; opens an
acknowledgement when none is open or the open byte is dropped because this one came too late; otherwise completes the open
one, which is judged. -/
def State.receive (s : State) (r : Reception) (byte : Byte) (stopHigh : Bool) : State :=
  if s.link.state = .off then s
  else if stopHigh = false then s.setOpenByte none
  else
    match s.link.openByte with
    | none => s.openAck byte
    | some o => if o.missedBy r then s.openAck byte else (s.setOpenByte none).judgeAck o.kind byte

/-- The part with no byte under way on RXP. -/
def State.endByte (s : State) : State :=
  { s with rxp := none }

/-- RXP_BYTE (R176): at its start bit a byte is under way, at the end of its stop bit it is received. -/
def State.rxpByte (s : State) (byte : Byte) (stopHigh : Bool) (moment : RxpMoment) : State :=
  match moment with
  | .startBit => s.beginByte
  | .stopBit => s.endByte.receive s.reception byte stopHigh

/-! ### The link operations -/

/-- LINK_START (R138). -/
def opLinkStart (p : PortId) (w : WriterNo) (s : State) : Applied :=
  admitted p w s <|
  require ((s.profile w).holds .link) .noRight s <|
  require (s.link.state = .down) .linkState s <|
  accept (.entries s.link.queue.length) (s.setLink { s.link with state := .idle })

/-- The VACATING slots whose RETIRE entry is pending, ascending (R139). -/
def State.retiringSlots (s : State) : List SlotNo :=
  allSlots.filter (fun i =>
    (s.slot i).isVacating && s.link.queue.any (fun e => e.slot == i && e.kind == .retire))

/-- The part after a flush: those slots FREE, the queue empty (R139). -/
def State.flush (s : State) : State :=
  (s.retiringSlots.foldl State.freeSlot s).setQueue []

/-- LINK_FLUSH (R139). -/
def opLinkFlush (p : PortId) (w : WriterNo) (s : State) : Applied :=
  admitted p w s <|
  require ((s.profile w).holds .link) .noRight s <|
  require (s.link.state ≠ .off) .linkState s <|
  accept (.flushed s.link.queue.length s.retiringSlots.length) s.flush

/-- The entry RESYNC adds for a slot, if any: published, LIVE, HELD or LATCHED, and no pending entry (R141). -/
def State.resyncEntry (s : State) (i : SlotNo) : Option Entry :=
  match s.slot i with
  | .holding r =>
    if r.publish ∧ r.state ≠ .dormant ∧ s.pendingAt i = false then
      some { slot := i, tag := r.tag, kind := .update }
    else none
  | _ => none

/-- The entries RESYNC adds, in ascending slot order (R141). -/
def State.resyncEntries (s : State) : List Entry :=
  allSlots.filterMap s.resyncEntry

/-- RESYNC (R141). -/
def opResync (p : PortId) (w : WriterNo) (s : State) : Applied :=
  admitted p w s <|
  require ((s.profile w).holds .link) .noRight s <|
  require (s.link.state ≠ .off) .linkState s <|
  accept (.entries s.resyncEntries.length) (s.setQueue (s.link.queue ++ s.resyncEntries))

/-- Enabling (R143): IDLE, the queue empty, no frame in flight, next link sequence number 0. -/
def State.enableLink (s : State) : State :=
  s.setLink { s.link with state := .idle, queue := [], inFlight := none, nextNumber := 0 }

/-- Disabling (R144): the frame in flight and every entry are gone, every VACATING slot becomes FREE, an open
acknowledgement byte is dropped, and the link is OFF. -/
def State.disableLink (s : State) : State :=
  let s' := allSlots.foldl State.freeSlot s
  s'.setLink { s'.link with
    state := .off, queue := [], inFlight := none, noted := false, ackTimer := .stopped, transmission := .stopped,
    openByte := none }

/-- The part after an accepted SET_LINK (R142). -/
def State.applyLinkSettings (s : State) (new : LinkSettings) : State :=
  let s' := s.setLink { s.link with settings := new }
  if s.link.state = .off then if new.enable then s'.enableLink else s'
  else if new.enable then s' else s'.disableLink

/-- SET_LINK (R142). -/
def opSetLink (p : PortId) (w : WriterNo) (enable bitRate timeout retry : Byte) (s : State) : Applied :=
  admitted p w s <|
  require (w = 0) .noRight s <|
  match linkSettings? enable bitRate timeout retry with
  | none => refuse .badOperand s
  | some new => accept (.previousLink s.link.settings (s.applyLinkSettings new).link.state) (s.applyLinkSettings new)

/-! ### The commands -/

/-- LINK_START as a command. -/
def execLinkStart (p : PortId) (w : WriterNo) (s : State) : Host.Outcome State Fault Refusal :=
  .next (answered (opLinkStart p w s))

/-- LINK_FLUSH as a command. -/
def execLinkFlush (p : PortId) (w : WriterNo) (s : State) : Host.Outcome State Fault Refusal :=
  .next (answered (opLinkFlush p w s))

/-- RESYNC as a command. -/
def execResync (p : PortId) (w : WriterNo) (s : State) : Host.Outcome State Fault Refusal :=
  .next (answered (opResync p w s))

/-- SET_LINK as a command. -/
def execSetLink (p : PortId) (w : WriterNo) (enable bitRate timeout retry : Byte) (s : State) :
    Host.Outcome State Fault Refusal :=
  .next (answered (opSetLink p w enable bitRate timeout retry s))

/-- SEND_EVENT. -/
def execSendEvent (s : State) : Host.Outcome State Fault Refusal :=
  .next s.sendEvent

/-- END_OF_TRANSMISSION. -/
def execEndOfTransmission (s : State) : Host.Outcome State Fault Refusal :=
  .next s.endOfTransmission

/-- ACKNOWLEDGEMENT. -/
def execAcknowledgement (kind number : Byte) (s : State) : Host.Outcome State Fault Refusal :=
  .next (s.acknowledgement kind number)

/-- ACKNOWLEDGEMENT_TIMER_EXPIRY. -/
def execAcknowledgementTimerExpiry (s : State) : Host.Outcome State Fault Refusal :=
  .next s.ackTimerExpiry

/-- RXP_BYTE. -/
def execRxpByte (byte : Byte) (stopHigh : Bool) (moment : RxpMoment) (s : State) : Host.Outcome State Fault Refusal :=
  .next (s.rxpByte byte stopHigh moment)

end Sys2Proof.Machine
end

