-- ==== Sys2Proof/Machine/Notices.lean ====
section
/-! DEFINITION. Notices, scans and status (chapter 9): POLL, SCAN, SCAN_NEXT, STATUS. -/

namespace Sys2Proof.Machine

/-- POLL (R165): up to eight of the oldest notices leave the port's queue, and the overflow flag is read and cleared. -/
def opPoll (p : PortId) (w : WriterNo) (s : State) : Applied :=
  admitted p w s <|
  accept
    (.notices (s.port p).noticeOverflow ((s.port p).notices.drop 8).length ((s.port p).notices.take 8))
    (s.setPort p { s.port p with notices := (s.port p).notices.drop 8, noticeOverflow := false })

/-- The position of a record state in a state set (10.3). -/
def RecordState.bit : RecordState → Nat
  | .dormant => 0
  | .live => 1
  | .held => 2
  | .latched => 3

/-- The owner part of a filter (R167). -/
def OwnerFilter.admits (f : OwnerFilter) (owner : Option WriterNo) : Bool :=
  match f with
  | .any => true
  | .unowned => owner.isNone
  | .writer w => owner == some w

/-- Whether a record passes the three parts of a filter (R167). -/
def Filter.admits (f : Filter) (r : Record) : Bool :=
  (f.states == 0 || f.states.getLsbD r.state.bit) && f.owner.admits r.owner &&
    (match f.group with | none => true | some g => r.group == g)

/-- The short view of a record (R169). -/
def Record.shortView (i : SlotNo) (r : Record) : ShortView where
  slot := i
  tag := r.tag
  state := r.state
  owner := r.owner
  precedence := r.precedence
  group := r.group
  live := r.live
  holdCause := r.holdCause
  staged := r.staged.isSome
  sequence := r.sequence

/-- The view a slot gives under a filter, if its record matches; a FREE or VACATING slot never does (R167). -/
def State.viewOf (s : State) (f : Filter) (i : SlotNo) : Option ShortView :=
  match s.slot i with
  | .holding r => if f.admits r then some (r.shortView i) else none
  | _ => none

/-- Every match from a slot on, in slot order. -/
def State.matchesFrom (s : State) (f : Filter) (next : Nat) : List ShortView :=
  (allSlots.filter (fun i => next ≤ i.val)).filterMap (s.viewOf f)

/-- The slot after the last one examined: after the eighth match, or 256 (R169, step 2). -/
def nextAfter (found : List ShortView) : Nat :=
  match found[7]? with
  | some v => v.slot.val + 1
  | none => 256

/-- A walk of a port's cursor (R169): up to eight matches, the cursor moved or, at slot 256, closed. -/
def walk (p : PortId) (c : Cursor) (s : State) : Applied :=
  let found := s.matchesFrom c.filter c.nextSlot
  let next := nextAfter found
  accept (.views (next = 256) next (found.take 8))
    (s.setPort p { s.port p with cursor := if next = 256 then none else some { c with nextSlot := next } })

/-- SCAN (R168): a new cursor at slot 0 replaces any open one, and walks. -/
def opScan (p : PortId) (w : WriterNo) (stateSet owner group : Byte) (s : State) : Applied :=
  admitted p w s <|
  match filter? stateSet owner group with
  | none => refuse .badOperand s
  | some f => walk p { writer := w, filter := f, nextSlot := 0 } s

/-- SCAN_NEXT (R169): the caller's open cursor walks on. Admission is judged before the cursor, so a dismissed opener is
refused with NOT_ADMITTED, where R170's example names NO_CURSOR: the model's choice (notes/assumptions/22.md). -/
def opScanNext (p : PortId) (w : WriterNo) (s : State) : Applied :=
  admitted p w s <|
  match (s.port p).cursor with
  | none => refuse .noCursor s
  | some c => require (c.writer = w) .noCursor s <| walk p c s

/-- STATUS (R171): the condition of the part; the two sticky SAFE flags are cleared. -/
def opStatus (p : PortId) (w : WriterNo) (s : State) : Applied :=
  admitted p w s <|
  accept
    (.status s.safe.level s.safe.seenActive s.safe.commitRefused s.link.state s.link.queue.length s.freeCount
      s.vacatingCount (allWriters.map (fun v => (s.writer v).binding)))
    s.clearSafeFlags

/-- SCAN as a command. -/
def execScan (p : PortId) (w : WriterNo) (stateSet owner group : Byte) (s : State) :
    Host.Outcome State Fault Refusal :=
  .next (answered (opScan p w stateSet owner group s))

/-- SCAN_NEXT as a command. -/
def execScanNext (p : PortId) (w : WriterNo) (s : State) : Host.Outcome State Fault Refusal :=
  .next (answered (opScanNext p w s))

/-- POLL as a command. -/
def execPoll (p : PortId) (w : WriterNo) (s : State) : Host.Outcome State Fault Refusal :=
  .next (answered (opPoll p w s))

/-- STATUS as a command. -/
def execStatus (p : PortId) (w : WriterNo) (s : State) : Host.Outcome State Fault Refusal :=
  .next (answered (opStatus p w s))

end Sys2Proof.Machine
end

