-- ==== Sys2Proof/Machine/Records.lean ====
section
/-! DEFINITION. Operations on the Record Table (chapter 1): CREATE, RETIRE, READ, CLEAR_TABLE. -/

namespace Sys2Proof.Machine

/-- CREATE writes its record in a FREE slot and its tag in the index, and the FREE count falls by 1 (R7, R8, R18). -/
def State.addRecord (s : State) (i : SlotNo) (r : Record) : State :=
  { s.setSlot i (.holding r) with
    tagIndex := indexInsert r.tag i s.tagIndex
    freeCount := s.freeCount - 1 }

/-- CREATE (R17, R18). -/
def opCreate (p : PortId) (w : WriterNo) (tag : Word16) (group : Byte) (lower upper fallback : Value)
    (clamp publish : Byte) (freshness : Word16) (holdPolicy holdPeriod orphan : Byte) (s : State) : Applied :=
  admitted p w s <|
  require ((s.profile w).holds .create) .noRight s <|
  match createRecord? tag group lower upper fallback clamp publish freshness holdPolicy holdPeriod orphan with
  | none => refuse .badOperand s
  | some r =>
    require (within lower upper fallback) .outOfRange s <|
    require (s.tagIndex.lookup tag = none) .duplicateTag s <|
    match s.lowestFree with
    | none => refuse .tableFull s
    | some i => accept (.slot i) (s.addRecord i r)

/-- RETIRE (R20, R21). -/
def opRetire (p : PortId) (w : WriterNo) (tag : Word16) (s : State) : Applied :=
  admitted p w s <|
  require ((s.profile w).holds .retire) .noRight s <|
  require (tagInRange tag) .badOperand s <|
  onRecord tag s fun i r =>
  require (r.owner = none ∨ r.owner = some w) .notOwner s <|
  accept (.slotState i ((s.retireRecord i r).slot i).state) (s.retireRecord i r)

/-- The full description of the record in a slot (R23). -/
def State.describe (s : State) (i : SlotNo) (r : Record) : Description where
  slot := i
  tag := r.tag
  state := r.state
  owner := r.owner
  precedence := r.precedence
  live := r.live
  staged := r.staged
  fallback := r.fallback
  lower := r.lower
  upper := r.upper
  clamp := r.clamp
  publish := r.publish
  group := r.group
  freshnessCode := r.freshnessCode
  holdPolicy := r.holdPolicy
  holdPeriod := r.holdPeriod
  orphan := r.orphan
  holdCause := r.holdCause
  refreshed := r.refreshed
  sequence := r.sequence
  pending := s.pendingAt i

/-- READ (R22). -/
def opRead (p : PortId) (w : WriterNo) (tag : Word16) (s : State) : Applied :=
  admitted p w s <|
  require (tagInRange tag) .badOperand s <|
  onRecord tag s fun i r =>
  accept (.description (s.describe i r)) s

/-- The slots that hold a record, ascending. -/
def State.indexedSlots (s : State) : List SlotNo :=
  allSlots.filter (fun i => (s.slot i).record?.isSome)

/-- Every indexed record is retired in ascending slot order, and both cursors close (R25). -/
def State.clearTable (s : State) : State :=
  ((s.indexedSlots.foldl State.retireSlot s).closeCursor .a).closeCursor .b

/-- A writer other than writer 0 is ADMITTED (R24). -/
def State.otherAdmitted (s : State) : Bool :=
  allWriters.any (fun w => w ≠ 0 && (s.writer w).binding.isSome)

/-- CLEAR_TABLE (R24, R25). -/
def opClearTable (p : PortId) (w : WriterNo) (s : State) : Applied :=
  admitted p w s <|
  require (w = 0) .noRight s <|
  require (s.otherAdmitted = false) .writerPresent s <|
  accept
    (.cleared s.indexedSlots.length
      (s.indexedSlots.filter (fun i => (s.clearTable.slot i).isVacating)).length)
    s.clearTable

/-- CREATE as a command. -/
def execCreate (p : PortId) (w : WriterNo) (tag : Word16) (group : Byte) (lower upper fallback : Value)
    (clamp publish : Byte) (freshness : Word16) (holdPolicy holdPeriod orphan : Byte) (s : State) :
    Host.Outcome State Fault Refusal :=
  .next (answered
    (opCreate p w tag group lower upper fallback clamp publish freshness holdPolicy holdPeriod orphan s))

/-- RETIRE as a command. -/
def execRetire (p : PortId) (w : WriterNo) (tag : Word16) (s : State) : Host.Outcome State Fault Refusal :=
  .next (answered (opRetire p w tag s))

/-- READ as a command. -/
def execRead (p : PortId) (w : WriterNo) (tag : Word16) (s : State) : Host.Outcome State Fault Refusal :=
  .next (answered (opRead p w tag s))

/-- CLEAR_TABLE as a command. -/
def execClearTable (p : PortId) (w : WriterNo) (s : State) : Host.Outcome State Fault Refusal :=
  .next (answered (opClearTable p w s))

end Sys2Proof.Machine
end

