-- ==== Sys2Proof/Machine/Staging.lean ====
section
/-! DEFINITION. Staging and record shape (chapter 4): STAGE, TOUCH, UNLATCH, SET_LIMITS, SET_FALLBACK,
SET_SUPERVISION, SET_GROUP. -/

namespace Sys2Proof.Machine

/-- The steps a STAGE-right operation shares: the right, the tag, the lookup, ownership (R68, steps 1 to 4). -/
def onOwned (p : PortId) (w : WriterNo) (tag : Word16) (s : State) (next : SlotNo → Record → Applied) : Applied :=
  admitted p w s <|
  require ((s.profile w).holds .stage) .noRight s <|
  require (tagInRange tag) .badOperand s <|
  onRecord tag s fun i r =>
  require (r.owner = some w) .notOwner s <|
  next i r

/-- The steps the shape operations share: the right, the operands, the lookup, the record unowned or the caller's
(R78, steps 1 to 4). -/
def onShaped (p : PortId) (w : WriterNo) (tag : Word16) (operands : Prop) [Decidable operands] (s : State)
    (next : SlotNo → Record → Applied) : Applied :=
  admitted p w s <|
  require ((s.profile w).holds .shape) .noRight s <|
  require (tagInRange tag ∧ operands) .badOperand s <|
  onRecord tag s fun i r =>
  require (r.owner = none ∨ r.owner = some w) .notOwner s <|
  next i r

/-- The entry a STAGE places: the operand within the limits, otherwise the limit it is clamped to, or none where the
record does not clamp (R69). -/
def Record.stagedFor (r : Record) (v : Value) : Option Staged :=
  if within r.lower r.upper v then some { value := v, clamped := false }
  else if r.clamp then
    some { value := if v.toInt < r.lower.toInt then r.lower else r.upper, clamped := true }
  else none

/-- STAGE (R68 to R71). -/
def opStage (p : PortId) (w : WriterNo) (tag : Word16) (value : Value) (s : State) : Applied :=
  onOwned p w tag s fun i r =>
  match r.stagedFor value with
  | none => refuse .outOfRange s
  | some e => accept (.staged i e.value e.clamped) (s.changeRecord i r { r.refresh with staged := some e })

/-- The effect a TOUCH reports (R74). -/
def Record.touchEffect (r : Record) : TouchEffect :=
  if r.state = .live ∧ r.freshnessCode ≠ 0 then .restarted
  else if r.state = .held ∧ r.holdCause = some .expiry then .refreshed
  else .none

/-- TOUCH (R74). -/
def opTouch (p : PortId) (w : WriterNo) (tag : Word16) (s : State) : Applied :=
  onOwned p w tag s fun i r =>
  accept (.touched i r.touchEffect) (s.changeRecord i r r.refresh)

/-- The record after an UNLATCH: LIVE with its countdown started while SAFE is released, HELD with cause SAFE while it
is active (R76). -/
def Record.unlatched (r : Record) (safeActive : Bool) : Record :=
  if safeActive then { r with state := .held, holdCause := some .safe }
  else { r with state := .live, countdown := countdownFor r.freshnessCode }

/-- UNLATCH (R75, R76). -/
def opUnlatch (p : PortId) (w : WriterNo) (tag : Word16) (s : State) : Applied :=
  onOwned p w tag s fun i r =>
  require (r.state = .latched) .badState s <|
  accept (.slotState i (r.unlatched s.safeActive).state.slotState) (s.changeRecord i r (r.unlatched s.safeActive))

/-- Whether a value lies outside limits. -/
def outside (lower upper v : Value) : Bool :=
  decide (¬ within lower upper v)

/-- SET_LIMITS (R80, R81). -/
def opSetLimits (p : PortId) (w : WriterNo) (tag : Word16) (lower upper : Value) (s : State) : Applied :=
  onShaped p w tag (lower.toInt ≤ upper.toInt) s fun i r =>
  let f := outside lower upper r.fallback
  let l := r.live.any (outside lower upper)
  let g := r.staged.any (fun e => outside lower upper e.value)
  if f || l || g then ({ status := .limitConflict, data := .outside f l g }, s)
  else accept (.slot i) (s.changeRecord i r { r with lower := lower, upper := upper })

/-- The record after SET_FALLBACK: in HELD and LATCHED the live value follows the fallback (R82). -/
def Record.withFallback (r : Record) (v : Value) : Record :=
  if r.state = .held ∨ r.state = .latched then { r with fallback := v, live := some v }
  else { r with fallback := v }

/-- SET_FALLBACK (R82). -/
def opSetFallback (p : PortId) (w : WriterNo) (tag : Word16) (value : Value) (s : State) : Applied :=
  onShaped p w tag True s fun i r =>
  require (within r.lower r.upper value) .outOfRange s <|
  accept (.fallbackSet i (r.live ≠ (r.withFallback value).live)) (s.changeRecord i r (r.withFallback value))

/-- The record after SET_SUPERVISION: all four settings replaced, and the countdown of an owned LIVE record restarted
with the new code or stopped (R84). -/
def Record.supervised (r : Record) (v : Supervision) : Record :=
  { r with
    freshnessCode := v.freshnessCode
    holdPolicy := v.holdPolicy
    holdPeriod := v.holdPeriod
    orphan := v.orphan
    countdown := if r.state = .live ∧ r.owner ≠ none then countdownFor v.freshnessCode else r.countdown }

/-- SET_SUPERVISION (R84). -/
def opSetSupervision (p : PortId) (w : WriterNo) (tag freshness : Word16) (holdPolicy holdPeriod orphan : Byte)
    (s : State) : Applied :=
  match supervision? freshness holdPolicy holdPeriod orphan with
  | none => onShaped p w tag False s fun _ _ => refuse .badOperand s
  | some v =>
    onShaped p w tag True s fun i r =>
    accept (.slot i) (s.changeRecord i r (r.supervised v))

/-- SET_GROUP (R86). -/
def opSetGroup (p : PortId) (w : WriterNo) (tag : Word16) (group : Byte) (s : State) : Applied :=
  match groupNo? group with
  | none => onShaped p w tag False s fun _ _ => refuse .badOperand s
  | some g =>
    onShaped p w tag True s fun i r =>
    accept (.regrouped i r.group) (s.changeRecord i r { r with group := g })

/-- STAGE as a command. -/
def execStage (p : PortId) (w : WriterNo) (tag : Word16) (value : Value) (s : State) :
    Host.Outcome State Fault Refusal :=
  .next (answered (opStage p w tag value s))

/-- TOUCH as a command. -/
def execTouch (p : PortId) (w : WriterNo) (tag : Word16) (s : State) : Host.Outcome State Fault Refusal :=
  .next (answered (opTouch p w tag s))

/-- UNLATCH as a command. -/
def execUnlatch (p : PortId) (w : WriterNo) (tag : Word16) (s : State) : Host.Outcome State Fault Refusal :=
  .next (answered (opUnlatch p w tag s))

/-- SET_LIMITS as a command. -/
def execSetLimits (p : PortId) (w : WriterNo) (tag : Word16) (lower upper : Value) (s : State) :
    Host.Outcome State Fault Refusal :=
  .next (answered (opSetLimits p w tag lower upper s))

/-- SET_FALLBACK as a command. -/
def execSetFallback (p : PortId) (w : WriterNo) (tag : Word16) (value : Value) (s : State) :
    Host.Outcome State Fault Refusal :=
  .next (answered (opSetFallback p w tag value s))

/-- SET_SUPERVISION as a command. -/
def execSetSupervision (p : PortId) (w : WriterNo) (tag freshness : Word16) (holdPolicy holdPeriod orphan : Byte)
    (s : State) : Host.Outcome State Fault Refusal :=
  .next (answered (opSetSupervision p w tag freshness holdPolicy holdPeriod orphan s))

/-- SET_GROUP as a command. -/
def execSetGroup (p : PortId) (w : WriterNo) (tag : Word16) (group : Byte) (s : State) :
    Host.Outcome State Fault Refusal :=
  .next (answered (opSetGroup p w tag group s))

end Sys2Proof.Machine
end

