-- ==== Sys2Proof/Machine/Writers.lean ====
section
/-! DEFINITION. Operations on the Writer Registry (chapter 2): ADMIT, DISMISS, SET_PROFILE, READ_PROFILE. -/

namespace Sys2Proof.Machine

/-- ADMIT (R35): the frame's writer, VACANT, is bound to the receiving port. -/
def opAdmit (p : PortId) (w : WriterNo) (s : State) : Applied :=
  require ((s.writer w).binding = none) .alreadyAdmitted s <|
  accept .empty (s.setWriter w { s.writer w with binding := some p })

/-- The number of a writer's records that a dismissal retires: those of orphan policy RETIRE (R37). -/
def State.retiringCount (s : State) (w : WriterNo) : Nat :=
  ((s.ownedSlots w).filter (fun i => (s.slot i).record?.any (fun r => r.orphan == .retire))).length

/-- DISMISS (R37): the dismissal path for the target writer. -/
def opDismiss (p : PortId) (w : WriterNo) (target : Byte) (s : State) : Applied :=
  admitted p w s <|
  require (w = 0 ∨ target.toNat = w.val) .noRight s <|
  match writerNo? target with
  | none => refuse .badOperand s
  | some t =>
    require ((s.writer t).binding ≠ none) .badState s <|
    accept (.dismissed (s.ownedSlots t).length (s.retiringCount t)) (s.dismissWriter t)

/-- SET_PROFILE (R45): writer 0 replaces the profile of a VACANT writer 1 to 7. -/
def opSetProfile (p : PortId) (w : WriterNo) (target rights ceiling : Byte) (quota : Word16) (s : State) : Applied :=
  admitted p w s <|
  require (w = 0) .noRight s <|
  match writerNo? target, profile? rights ceiling quota with
  | some t, some new =>
    require (t ≠ 0) .badOperand s <|
    require ((s.writer t).binding = none) .writerBusy s <|
    accept .empty (s.setProfile t new)
  | _, _ => refuse .badOperand s

/-- READ_PROFILE (R46). -/
def opReadProfile (p : PortId) (w : WriterNo) (target : Byte) (s : State) : Applied :=
  admitted p w s <|
  match writerNo? target with
  | none => refuse .badOperand s
  | some t => accept (.profile t (s.profile t) (s.writer t)) s

/-- ADMIT as a command. -/
def execAdmitWriter (p : PortId) (w : WriterNo) (s : State) : Host.Outcome State Fault Refusal :=
  .next (answered (opAdmit p w s))

/-- DISMISS as a command. -/
def execDismiss (p : PortId) (w : WriterNo) (target : Byte) (s : State) : Host.Outcome State Fault Refusal :=
  .next (answered (opDismiss p w target s))

/-- SET_PROFILE as a command. -/
def execSetProfile (p : PortId) (w : WriterNo) (target rights ceiling : Byte) (quota : Word16) (s : State) :
    Host.Outcome State Fault Refusal :=
  .next (answered (opSetProfile p w target rights ceiling quota s))

/-- READ_PROFILE as a command. -/
def execReadProfile (p : PortId) (w : WriterNo) (target : Byte) (s : State) : Host.Outcome State Fault Refusal :=
  .next (answered (opReadProfile p w target s))

end Sys2Proof.Machine
end

