-- ==== Sys2Proof/Machine/Ports.lean ====
section
/-! DEFINITION. The command ports (chapter 8): transactions, the taking and completion of frames, the application of a
batch, read-out, and the port break. -/

namespace Sys2Proof.Machine

/-! ### The batch (R153) -/

/-- One operation of a batch, for the frame's writer at the receiving port. -/
def applyOp (p : PortId) (w : WriterNo) (op : Op) (s : State) : Applied :=
  match op with
  | .admitWriter => opAdmit p w s
  | .dismiss t => opDismiss p w t s
  | .setProfile t r c q => opSetProfile p w t r c q s
  | .readProfile t => opReadProfile p w t s
  | .create tag g lo hi fb c pub f hp hd o => opCreate p w tag g lo hi fb c pub f hp hd o s
  | .retire tag => opRetire p w tag s
  | .read tag => opRead p w tag s
  | .claim tag q => opClaim p w tag q s
  | .release tag => opRelease p w tag s
  | .stage tag v => opStage p w tag v s
  | .touch tag => opTouch p w tag s
  | .unlatch tag => opUnlatch p w tag s
  | .setLimits tag lo hi => opSetLimits p w tag lo hi s
  | .setFallback tag v => opSetFallback p w tag v s
  | .setSupervision tag f hp hd o => opSetSupervision p w tag f hp hd o s
  | .setGroup tag g => opSetGroup p w tag g s
  | .commit g => opCommit p w g s
  | .setCycle g d => opSetCycle p w g d s
  | .setTrigger l e g => opSetTrigger p w l e g s
  | .readGroup g => opReadGroup p w g s
  | .linkStart => opLinkStart p w s
  | .linkFlush => opLinkFlush p w s
  | .resync => opResync p w s
  | .setLink e b t r => opSetLink p w e b t r s
  | .scan st o g => opScan p w st o g s
  | .scanNext => opScanNext p w s
  | .poll => opPoll p w s
  | .status => opStatus p w s
  | .clearTable => opClearTable p w s

/-- The result of an operation after the first refused one (R153). -/
def skippedResult : OpResult :=
  { status := .skipped, data := .empty }

/-- A batch: its operations in order, each judged against the part as those before it left it; the first one refused
stops it, and every operation after that is SKIPPED (R153). -/
def applyBatch (p : PortId) (w : WriterNo) : List Op → State → List OpResult × State
  | [], s => ([], s)
  | op :: rest, s =>
    let a := applyOp p w op s
    if a.1.status = .ok then
      let b := applyBatch p w rest a.2
      (a.1 :: b.1, b.2)
    else (a.1 :: rest.map (fun _ => skippedResult), a.2)

/-! ### Completion (R152, R153, R156) -/

/-- The response composed for a frame from the port's flags and notices as they stand at the completion (R156). -/
def Port.compose (x : Port) (f : TakenFrame) (status : FrameStatus) (results : List OpResult) : Response where
  sequence := f.sequence
  status := status
  overrun := x.overrun
  previousUnread := x.unreadDiscarded
  noticeOverflow := x.noticeOverflow
  noticeCount := x.notices.length
  results := results

/-- Completion of a frame: the response is stored with read mark no, the flags it reports are cleared, and the port
becomes READY (R153, R156). -/
def Port.complete (x : Port) (f : TakenFrame) (status : FrameStatus) (results : List OpResult) : Port :=
  { x.clearReported with
    service := .ready
    stored := some { response := x.compose f status results, read := false } }

/-- The results a port remembers from the last frame applied on it (R152). -/
def Port.remembered (x : Port) : List OpResult :=
  match x.duplicate with
  | some m => m.results
  | none => []

/-- FRAME_COMPLETION (R153): a frame with status CRC_ERROR, MALFORMED or DUPLICATE completes in an event of its own. -/
def State.frameCompletion (s : State) (p : PortId) : State :=
  match (s.port p).service with
  | .serving f =>
    match f.judgement with
    | .crcError => s.setPort p ((s.port p).complete f .crcError [])
    | .malformed => s.setPort p ((s.port p).complete f .malformed [])
    | .duplicate => s.setPort p ((s.port p).complete f .duplicate (s.port p).remembered)
    | .ok _ _ => s
  | _ => s

/-- A completed frame with status OK: its response stored and the duplicate memory written (R152, R153). -/
def Port.completeOk (x : Port) (f : TakenFrame) (results : List OpResult) : Port :=
  { x.complete f .ok results with
    duplicate := some { sequence := f.sequence, crc := f.crc, results := results } }

/-- BATCH_APPLICATION (R153): the batch is applied whole, and the frame completes in the same event. -/
def State.batchApplication (s : State) (p : PortId) : State :=
  match (s.port p).service with
  | .serving f =>
    match f.judgement with
    | .ok w ops =>
      (applyBatch p w ops s).2.setPort p
        (((applyBatch p w ops s).2.port p).completeOk f (applyBatch p w ops s).1)
    | _ => s
  | _ => s

/-! ### Transactions (R148, R157, R159) -/

/-- Whether the port can take a transaction code: a transaction has begun, or select is inactive and the command
stands for the whole transaction (notes/assumptions/6.md). -/
def Transaction.takesCode : Transaction → Bool
  | .inactive => true
  | .begun => true
  | _ => false

/-- The break interval restarts with 5 ms, except while a break is being carried out (R159). -/
def Port.restartBreak (x : Port) : Port :=
  if x.service = .breaking then x else { x with breakInterval := .running breakTime }

/-- Select is released: the transaction ends and the break interval stops (R159). -/
def Port.releaseSelect (x : Port) : Port :=
  { x with transaction := .inactive, breakInterval := .stopped }

/-- SELECT_ACTIVATION (R159). A line already active is not activated. -/
def State.selectActivation (s : State) (p : PortId) : State :=
  if (s.port p).transaction = .inactive then
    s.setPort p ({ s.port p with transaction := .begun }).restartBreak
  else s

/-- CLOCK_EDGE (R159): restarts the break interval while select is active, but not after a break until select has
been released. -/
def State.clockEdge (s : State) (p : PortId) : State :=
  match (s.port p).transaction with
  | .inactive => s
  | .broken => s
  | _ => s.setPort p (s.port p).restartBreak

/-- SELECT_RELEASE (R159). -/
def State.selectRelease (s : State) (p : PortId) : State :=
  s.setPort p (s.port p).releaseSelect

/-- The port's part in a completed request frame (R149): taken and judged while READY, discarded with the overrun flag
set while IN_SERVICE. -/
def Port.receive (x : Port) (bytes : List Byte) : Port :=
  match x.service with
  | .ready =>
    { x.discardStored with
      service := .serving
        { sequence := frameSequence bytes, crc := frameCrc bytes, judgement := judgeFrame x.duplicate bytes } }
  | _ => x.flagOverrun

/-- REQUEST (R148, R149): the release of select completes the frame. No frame completes in a transaction that a break
or a reset ended, or that carries another code. -/
def State.request (s : State) (p : PortId) (bytes : List Byte) : State :=
  if (s.port p).transaction.takesCode then s.setPort p ((s.port p).releaseSelect.receive bytes) else s

/-- The header a READOUT sends when no response is stored (R157). -/
def Port.noneHeader (x : Port) : Response where
  sequence := 0
  status := .none
  overrun := x.overrun
  previousUnread := x.unreadDiscarded
  noticeOverflow := x.noticeOverflow
  noticeCount := x.notices.length
  results := []

/-- The READOUT transaction that starts from a port: the stored response, or a NONE header (R157). -/
def Port.readoutStart (x : Port) : Transaction :=
  match x.stored with
  | some r => .readout true r.response.bytes
  | none => .readout false x.noneHeader.bytes

/-- The byte SDO carries while an agent clocks byte `n` after the transaction code: a byte of the response in a READOUT,
and the fill byte 0xFF wherever no response byte is due (R148, R157, R174). -/
def Transaction.sdoByte (t : Transaction) (n : Nat) : Byte :=
  match t with
  | .readout _ bytes => (bytes[n]?).getD 0xFF
  | _ => 0xFF

/-- Bit `n` of what SDO carries after the transaction code, each byte most significant bit first (R174). -/
def Transaction.sdoBit (t : Transaction) (n : Nat) : Bool :=
  (t.sdoByte (n / 8)).getLsbD (7 - n % 8)

/-- The level of SDO after so many falling edges of CLK_x since the rising edge that took the last bit of the transaction
code: SDO changes at each falling edge, to the first bit at the first of them (R174; notes/assumptions/19.md). -/
def Transaction.sdo (t : Transaction) (falls : Nat) : Bool :=
  match falls with
  | 0 => true
  | n + 1 => t.sdoBit n

/-- READOUT (R157). -/
def State.readout (s : State) (p : PortId) : State :=
  if (s.port p).transaction.takesCode then
    s.setPort p ({ s.port p with transaction := (s.port p).readoutStart }).restartBreak
  else s

/-- The stored response marked as read completely. -/
def Port.markRead (x : Port) : Port :=
  { x with stored := x.stored.map (fun r => { r with read := true }) }

/-- READOUT_END (R157): select is released after every byte of the response has been clocked out; a stored response is
then marked read, a NONE header marks nothing. -/
def State.readoutEnd (s : State) (p : PortId) : State :=
  match (s.port p).transaction with
  | .readout true _ => s.setPort p (s.port p).markRead.releaseSelect
  | .readout false _ => s.setPort p (s.port p).releaseSelect
  | _ => s

/-- TRANSACTION_IGNORED (R148): a first byte that is neither transaction code leaves the transaction ignored; a
transaction without a byte ends. No other field of the port changes. -/
def State.transactionIgnored (s : State) (p : PortId) (first : Option Byte) : State :=
  if (s.port p).transaction.takesCode then
    match first with
    | none => s.selectRelease p
    | some b =>
      if (transactionCode? b).isSome then s
      else s.setPort p ({ s.port p with transaction := .ignored }).restartBreak
  else s

/-! ### The port break (R160) -/

/-- The end of a break: the Notice Queue empty, the cursor closed, the stored response and the duplicate memory
absent, the flags clear, the port READY (R160, step 3). -/
def Port.endBreak (x : Port) : Port :=
  { x with
    service := .ready, stored := none, duplicate := none, overrun := false, unreadDiscarded := false, notices := [],
    noticeOverflow := false, cursor := none }

/-- A port when its break interval expires: IN_SERVICE, any frame in service abandoned, the transaction ended (R159,
R160, step 1). -/
def Port.startBreak (x : Port) : Port :=
  { x with service := .breaking, breakInterval := .stopped, transaction := .broken }

/-- PORT_BREAK (R160): the break interval, running, expires. With no writer bound to the port the break ends in the
same event. -/
def State.portBreak (s : State) (p : PortId) : State :=
  if (s.port p).breakInterval = .stopped then s
  else if s.lowestBound p = none then s.setPort p (s.port p).startBreak.endBreak
  else s.setPort p (s.port p).startBreak

/-- BREAK_DISMISSAL (R48): the lowest-numbered writer bound to a port that is carrying out a break is dismissed. -/
def State.breakDismissal (s : State) (p : PortId) : State :=
  match (s.port p).service, s.lowestBound p with
  | .breaking, some w => s.dismissWriter w
  | _, _ => s

/-- BREAK_COMPLETION (R160, step 3): no writer is bound to the port any more. -/
def State.breakCompletion (s : State) (p : PortId) : State :=
  match (s.port p).service, s.lowestBound p with
  | .breaking, none => s.setPort p (s.port p).endBreak
  | _, _ => s

/-! ### The commands -/

/-- SELECT_ACTIVATION. -/
def execSelectActivation (p : PortId) (s : State) : Host.Outcome State Fault Refusal :=
  .next (s.selectActivation p)

/-- REQUEST. -/
def execRequest (p : PortId) (bytes : List Byte) (s : State) : Host.Outcome State Fault Refusal :=
  .next (s.request p bytes)

/-- FRAME_COMPLETION. -/
def execFrameCompletion (p : PortId) (s : State) : Host.Outcome State Fault Refusal :=
  .next (s.frameCompletion p)

/-- READOUT. -/
def execReadout (p : PortId) (s : State) : Host.Outcome State Fault Refusal :=
  .next (s.readout p)

/-- READOUT_END. -/
def execReadoutEnd (p : PortId) (s : State) : Host.Outcome State Fault Refusal :=
  .next (s.readoutEnd p)

/-- TRANSACTION_IGNORED. -/
def execTransactionIgnored (p : PortId) (first : Option Byte) (s : State) : Host.Outcome State Fault Refusal :=
  .next (s.transactionIgnored p first)

/-- PORT_BREAK. -/
def execPortBreak (p : PortId) (s : State) : Host.Outcome State Fault Refusal :=
  .next (s.portBreak p)

/-- BREAK_DISMISSAL. -/
def execBreakDismissal (p : PortId) (s : State) : Host.Outcome State Fault Refusal :=
  .next (s.breakDismissal p)

/-- BREAK_COMPLETION. -/
def execBreakCompletion (p : PortId) (s : State) : Host.Outcome State Fault Refusal :=
  .next (s.breakCompletion p)

/-- BATCH_APPLICATION. -/
def execBatchApplication (p : PortId) (s : State) : Host.Outcome State Fault Refusal :=
  .next (s.batchApplication p)

/-- CLOCK_EDGE. -/
def execClockEdge (p : PortId) (s : State) : Host.Outcome State Fault Refusal :=
  .next (s.clockEdge p)

/-- SELECT_RELEASE. -/
def execSelectRelease (p : PortId) (s : State) : Host.Outcome State Fault Refusal :=
  .next (s.selectRelease p)

end Sys2Proof.Machine
end

