-- ==== Sys2Proof/Machine/Supervision.lean ====
section
/-! DEFINITION. The Supervision Unit (chapter 6): freshness and hold expiries, the SAFE_N filter, SAFE entry and SAFE
release. -/

namespace Sys2Proof.Machine

/-! ### Expiries -/

/-- A LIVE record after its freshness expiry: HELD with cause EXPIRY and its hold timer started, or LATCHED, by its
hold policy; at its fallback value, its staged entry discarded, its countdown STOPPED (R108). -/
def Record.freshnessExpired (r : Record) : Record :=
  match r.holdPolicy with
  | .resume =>
    { r with
      state := .held, holdCause := some .expiry, refreshed := some false, live := some r.fallback, staged := none,
      countdown := .stopped, holdTimer := holdTimerFor r.holdPeriod }
  | .latch => { r with state := .latched, live := some r.fallback, staged := none, countdown := .stopped }

/-- The notice a freshness expiry raises (R108, R112). -/
def Record.freshnessNotice (r : Record) : Notice :=
  match r.holdPolicy with
  | .resume => .holdEntered r.tag
  | .latch => .latched r.tag

/-- FRESHNESS_EXPIRY (R108). It reaches only a slot whose countdown runs (R5, R105). -/
def State.freshnessExpiry (s : State) (i : SlotNo) : State :=
  match s.slot i with
  | .holding r =>
    if r.state = .live ∧ r.countdown ≠ .stopped then
      (s.changeRecord i r r.freshnessExpired).notifyOwner r r.freshnessNotice
    else s
  | _ => s

/-- A record HELD with cause EXPIRY after its hold-timer expiry (R110): resumed, turned to cause SAFE, its hold
restarted, or latched. -/
def Record.holdExpired (r : Record) (safeActive : Bool) : Record :=
  if r.refreshed = some true then
    if safeActive then { r with holdCause := some .safe, refreshed := none, holdTimer := .stopped }
    else
      { r with
        state := .live, holdCause := none, refreshed := none, holdTimer := .stopped,
        countdown := countdownFor r.freshnessCode }
  else
    match r.holdPolicy with
    | .resume => { r with holdTimer := holdTimerFor r.holdPeriod }
    | .latch => { r with state := .latched, holdCause := none, refreshed := none, holdTimer := .stopped }

/-- The notice a hold-timer expiry raises, if any (R110, R112). -/
def Record.holdNotice (r : Record) (safeActive : Bool) : Option Notice :=
  if r.refreshed = some true then
    if safeActive then none else some (.resumed r.tag)
  else
    match r.holdPolicy with
    | .resume => none
    | .latch => some (.latched r.tag)

/-- HOLD_TIMER_EXPIRY (R110). It reaches only a record HELD with cause EXPIRY whose hold timer runs (R5, R105). -/
def State.holdTimerExpiry (s : State) (i : SlotNo) : State :=
  match s.slot i with
  | .holding r =>
    if r.state = .held ∧ r.holdCause = some .expiry ∧ r.holdTimer ≠ .stopped then
      let s' := s.changeRecord i r (r.holdExpired s.safeActive)
      match r.holdNotice s.safeActive with
      | some n => s'.notifyOwner r n
      | none => s'
    else s
  | _ => s

/-! ### The SAFE filter (R115) -/

/-- Whether the line's level is the one opposite to the filtered level: low corresponds to ACTIVE, high to RELEASED. -/
def SafeState.opposed (f : SafeState) : Bool :=
  match f.level with
  | .released => !f.lineHigh
  | .active => f.lineHigh

/-- The stability interval just started: 1 ms. -/
def stabilityStart : Timer :=
  .running (ms 1)

/-- SAFE_N_CHANGE (R115): a change to the opposite of the filtered level starts the stability interval, a change back
stops it. A line named at the level it already has does not change. -/
def State.safeNChange (s : State) (high : Bool) : State :=
  if high = s.safe.lineHigh then s
  else
    let f := { s.safe with lineHigh := high }
    s.setSafe { f with stability := if f.opposed then stabilityStart else .stopped }

/-! ### SAFE entry (R117, R119) -/

/-- A LIVE record after SAFE entry: HELD with cause SAFE at its fallback value, countdown STOPPED, staged entry kept
(R117). -/
def Record.heldForSafe (r : Record) : Record :=
  { r with state := .held, holdCause := some .safe, live := some r.fallback, countdown := .stopped }

/-- SAFE entry's effect on one slot (R117). -/
def State.holdForSafe (s : State) (i : SlotNo) : State :=
  match s.slot i with
  | .holding r => if r.state = .live then s.changeRecord i r r.heldForSafe else s
  | _ => s

/-- SAFE entry stops a group's cycle timer (R97). -/
def State.stopCycle (s : State) (g : GroupNo) : State :=
  s.setGroupEntry g { s.groupEntry g with timer := .stopped }

/-- The SAFE state right after the filtered level became ACTIVE (R117, R122). -/
def SafeState.entered (f : SafeState) : SafeState :=
  { f with level := .active, stability := .stopped, seenActive := true }

/-- SAFE_ENTRY (R117, R119): the stability interval expires with the line low. -/
def State.safeEntry (s : State) : State :=
  if s.safe.stability ≠ .stopped ∧ s.safe.lineHigh = false then
    ((allGroups.foldl State.stopCycle
      (allSlots.foldl State.holdForSafe (s.setSafe s.safe.entered)))).notifyBoth (.safeChanged .active)
  else s

/-! ### SAFE release (R120) -/

/-- A record HELD with cause SAFE after SAFE release: LIVE at its fallback value, its countdown started if it is owned
and supervised (R120). -/
def Record.releasedFromSafe (r : Record) : Record :=
  { r with
    state := .live
    holdCause := none
    countdown := if r.owner ≠ none then countdownFor r.freshnessCode else r.countdown }

/-- SAFE release's effect on one slot (R120). -/
def State.releaseFromSafe (s : State) (i : SlotNo) : State :=
  match s.slot i with
  | .holding r =>
    if r.state = .held ∧ r.holdCause = some .safe then s.changeRecord i r r.releasedFromSafe else s
  | _ => s

/-- SAFE release starts the cycle timer of a group whose period is not 0 (R97). -/
def State.startCycle (s : State) (g : GroupNo) : State :=
  if (s.groupEntry g).period = 0 then s
  else s.setGroupEntry g { s.groupEntry g with timer := .running (ms (s.groupEntry g).period.toNat) }

/-- The SAFE state right after the filtered level became RELEASED (R120). -/
def SafeState.left (f : SafeState) : SafeState :=
  { f with level := .released, stability := .stopped }

/-- SAFE_RELEASE (R120): the stability interval expires with the line high. -/
def State.safeRelease (s : State) : State :=
  if s.safe.stability ≠ .stopped ∧ s.safe.lineHigh = true then
    ((allGroups.foldl State.startCycle
      (allSlots.foldl State.releaseFromSafe (s.setSafe s.safe.left)))).notifyBoth (.safeChanged .released)
  else s

/-! ### The commands -/

/-- FRESHNESS_EXPIRY. -/
def execFreshnessExpiry (slot : SlotNo) (s : State) : Host.Outcome State Fault Refusal :=
  .next (s.freshnessExpiry slot)

/-- HOLD_TIMER_EXPIRY. -/
def execHoldTimerExpiry (slot : SlotNo) (s : State) : Host.Outcome State Fault Refusal :=
  .next (s.holdTimerExpiry slot)

/-- SAFE_N_CHANGE. -/
def execSafeNChange (high : Bool) (s : State) : Host.Outcome State Fault Refusal :=
  .next (s.safeNChange high)

/-- SAFE_ENTRY. -/
def execSafeEntry (s : State) : Host.Outcome State Fault Refusal :=
  .next s.safeEntry

/-- SAFE_RELEASE. -/
def execSafeRelease (s : State) : Host.Outcome State Fault Refusal :=
  .next s.safeRelease

end Sys2Proof.Machine
end

