-- ==== Sys2Proof/Machine/Reset.lean ====
section
/-! DEFINITION. Power-on reset and RST_N (R27, R47, R104, R116, R123, R146, R162, R172). -/

namespace Sys2Proof.Machine

/-- A port at the end of a reset: with select active its transaction is lost, and the break interval starts (R162). -/
def Port.afterReset (x : Port) : Port :=
  if x.transaction = .inactive then Port.reset
  else { Port.reset with transaction := .lost, breakInterval := .running breakTime }

/-- The SAFE state at the end of a reset: with SAFE_N low the stability interval starts (R116). -/
def SafeState.afterReset (f : SafeState) : SafeState :=
  { SafeState.reset with
    lineHigh := f.lineHigh
    stability := if f.lineHigh then .stopped else stabilityStart }

/-- Every block at its state after reset. The levels of SAFE_N and of the select lines, which the part does not drive,
stay as they are, and so do the queue and the count of free choices (notes/assumptions/8.md). -/
def State.afterReset (s : State) : State :=
  { State.reset with
    safe := s.safe.afterReset
    portA := s.portA.afterReset
    portB := s.portB.afterReset
    choices := s.choices
    pending := s.pending }

/-- POWER_ON_RESET. -/
def execPowerOnReset (s : State) : Host.Outcome State Fault Refusal :=
  .next s.afterReset

/-- RST_N has the same effect on every block as power-on reset. -/
def execRstN (s : State) : Host.Outcome State Fault Refusal :=
  .next s.afterReset

end Sys2Proof.Machine
end

