-- ==== Sys2Proof/Machine/Dispatch.lean ====
section
/-! DEFINITION. The meaning of every command: one arm per constructor, one direct call each. Every arm gives its command
the effect the spec states for it, on everything but the queue. -/

namespace Sys2Proof.Machine

open Sys2Proof

/-- The command's effect. -/
def exec (i : Instr) (s : State) : Host.Outcome State Fault Refusal :=
  match i with
  | .powerOnReset => Sys2Proof.Machine.execPowerOnReset s
  | .rstN => Sys2Proof.Machine.execRstN s
  | .selectActivation p => Sys2Proof.Machine.execSelectActivation p s
  | .request p bytes => Sys2Proof.Machine.execRequest p bytes s
  | .frameCompletion p => Sys2Proof.Machine.execFrameCompletion p s
  | .readout p => Sys2Proof.Machine.execReadout p s
  | .readoutEnd p => Sys2Proof.Machine.execReadoutEnd p s
  | .transactionIgnored p first => Sys2Proof.Machine.execTransactionIgnored p first s
  | .portBreak p => Sys2Proof.Machine.execPortBreak p s
  | .breakDismissal p => Sys2Proof.Machine.execBreakDismissal p s
  | .breakCompletion p => Sys2Proof.Machine.execBreakCompletion p s
  | .admitWriter p w => Sys2Proof.Machine.execAdmitWriter p w s
  | .dismiss p w target => Sys2Proof.Machine.execDismiss p w target s
  | .setProfile p w target rights ceiling quota => Sys2Proof.Machine.execSetProfile p w target rights ceiling quota s
  | .readProfile p w target => Sys2Proof.Machine.execReadProfile p w target s
  | .create p w tag group lower upper fallback clamp publish freshness holdPolicy holdPeriod orphan => Sys2Proof.Machine.execCreate p w tag group lower upper fallback clamp publish freshness holdPolicy holdPeriod orphan s
  | .retire p w tag => Sys2Proof.Machine.execRetire p w tag s
  | .read p w tag => Sys2Proof.Machine.execRead p w tag s
  | .clearTable p w => Sys2Proof.Machine.execClearTable p w s
  | .claim p w tag precedence => Sys2Proof.Machine.execClaim p w tag precedence s
  | .release p w tag => Sys2Proof.Machine.execRelease p w tag s
  | .stage p w tag value => Sys2Proof.Machine.execStage p w tag value s
  | .touch p w tag => Sys2Proof.Machine.execTouch p w tag s
  | .unlatch p w tag => Sys2Proof.Machine.execUnlatch p w tag s
  | .setLimits p w tag lower upper => Sys2Proof.Machine.execSetLimits p w tag lower upper s
  | .setFallback p w tag value => Sys2Proof.Machine.execSetFallback p w tag value s
  | .setSupervision p w tag freshness holdPolicy holdPeriod orphan => Sys2Proof.Machine.execSetSupervision p w tag freshness holdPolicy holdPeriod orphan s
  | .setGroup p w tag group => Sys2Proof.Machine.execSetGroup p w tag group s
  | .commit p w group => Sys2Proof.Machine.execCommit p w group s
  | .setCycle p w group period => Sys2Proof.Machine.execSetCycle p w group period s
  | .setTrigger p w line enabled group => Sys2Proof.Machine.execSetTrigger p w line enabled group s
  | .readGroup p w group => Sys2Proof.Machine.execReadGroup p w group s
  | .linkStart p w => Sys2Proof.Machine.execLinkStart p w s
  | .linkFlush p w => Sys2Proof.Machine.execLinkFlush p w s
  | .resync p w => Sys2Proof.Machine.execResync p w s
  | .setLink p w enable bitRate timeout retry => Sys2Proof.Machine.execSetLink p w enable bitRate timeout retry s
  | .scan p w stateSet owner group => Sys2Proof.Machine.execScan p w stateSet owner group s
  | .scanNext p w => Sys2Proof.Machine.execScanNext p w s
  | .poll p w => Sys2Proof.Machine.execPoll p w s
  | .status p w => Sys2Proof.Machine.execStatus p w s
  | .freshnessExpiry slot => Sys2Proof.Machine.execFreshnessExpiry slot s
  | .holdTimerExpiry slot => Sys2Proof.Machine.execHoldTimerExpiry slot s
  | .cycleTimerExpiry group => Sys2Proof.Machine.execCycleTimerExpiry group s
  | .risingEdge line => Sys2Proof.Machine.execRisingEdge line s
  | .safeNChange high => Sys2Proof.Machine.execSafeNChange high s
  | .safeEntry => Sys2Proof.Machine.execSafeEntry s
  | .safeRelease => Sys2Proof.Machine.execSafeRelease s
  | .sendEvent => Sys2Proof.Machine.execSendEvent s
  | .endOfTransmission => Sys2Proof.Machine.execEndOfTransmission s
  | .acknowledgement kind number => Sys2Proof.Machine.execAcknowledgement kind number s
  | .acknowledgementTimerExpiry => Sys2Proof.Machine.execAcknowledgementTimerExpiry s
  | .batchApplication p => Sys2Proof.Machine.execBatchApplication p s
  | .clockEdge p => Sys2Proof.Machine.execClockEdge p s
  | .selectRelease p => Sys2Proof.Machine.execSelectRelease p s
  | .rxpByte byte stopHigh moment => Sys2Proof.Machine.execRxpByte byte stopHigh moment s

end Sys2Proof.Machine
end

