-- ==== Sys2Proof/Machine/Time.lean ====
section
/-! DEFINITION. What the part does when no command waits: it takes one of the events that are due or may follow, or a
unit of time passes (notes/assumptions/1.md, 2.md, 3.md). -/

namespace Sys2Proof.Machine

/-! ### Time passes -/

/-- One unit less until the expiry. -/
def Timer.tick : Timer → Timer
  | .stopped => .stopped
  | .running n => .running (n - 1)

/-- One unit less until the expiry; the period the timer was started with stays. -/
def HoldTimer.tick : HoldTimer → HoldTimer
  | .stopped => .stopped
  | .running n period => .running (n - 1) period

/-- One unit less until the end of the transmission, at the rate it has. -/
def Transmission.tick : Transmission → Transmission
  | .stopped => .stopped
  | .running n rate => .running (n - 1) rate

/-- One unit more since the end of an open byte's stop bit. -/
def OpenByte.tick (o : OpenByte) : OpenByte :=
  { o with age := o.age + 1 }

/-- One unit more since the start bit of a byte under way, at the rate it saw. -/
def Reception.tick (r : Reception) : Reception :=
  { r with age := r.age + 1 }

/-- The two timers of a slot. -/
def Slot.tick : Slot → Slot
  | .holding r => .holding { r with countdown := r.countdown.tick, holdTimer := r.holdTimer.tick }
  | x => x

/-- A unit of time passes for every timer of the part (R105: time is measured from REFCLK), and for the bytes of
RXP (R176). -/
def State.tick (s : State) : State :=
  { s with
    table := s.table.map (fun e => (e.1, e.2.tick))
    groups := s.groups.map (fun e => { e with timer := e.timer.tick })
    safe := { s.safe with stability := s.safe.stability.tick }
    link := { s.link with
      ackTimer := s.link.ackTimer.tick
      transmission := s.link.transmission.tick
      openByte := s.link.openByte.map OpenByte.tick }
    rxp := s.rxp.map Reception.tick
    portA := { s.portA with breakInterval := s.portA.breakInterval.tick }
    portB := { s.portB with breakInterval := s.portB.breakInterval.tick } }

/-! ### The events that are due -/

/-- The timer runs and no time remains. -/
def Timer.due (t : Timer) : Bool :=
  t == .running 0

/-- The hold timer runs and no time remains. -/
def HoldTimer.due : HoldTimer → Bool
  | .running 0 _ => true
  | _ => false

/-- The transmission runs and no time remains. -/
def Transmission.due : Transmission → Bool
  | .running 0 _ => true
  | _ => false

/-- The expiries due at a slot. -/
def State.dueAtSlot (s : State) (i : SlotNo) : List Instr :=
  match s.slot i with
  | .holding r =>
    (if r.countdown.due then [.freshnessExpiry i] else []) ++ (if r.holdTimer.due then [.holdTimerExpiry i] else [])
  | _ => []

/-- Every expiry that is due: time does not pass before it is taken. -/
def State.dueEvents (s : State) : List Instr :=
  ([PortId.a, PortId.b].filter (fun p => (s.port p).breakInterval.due)).map Instr.portBreak ++
  allSlots.flatMap s.dueAtSlot ++
  (allGroups.filter (fun g => (s.groupEntry g).timer.due)).map Instr.cycleTimerExpiry ++
  (if s.safe.stability.due then [if s.safe.lineHigh then .safeRelease else .safeEntry] else []) ++
  (if s.link.transmission.due then [.endOfTransmission] else []) ++
  (if s.link.ackTimer.due then [.acknowledgementTimerExpiry] else [])

/-- What a port may do by itself: complete the frame in service, or carry a break on (R153, R160). -/
def State.readyAtPort (s : State) (p : PortId) : List Instr :=
  match (s.port p).service with
  | .ready => []
  | .serving f =>
    match f.judgement with
    | .ok _ _ => [.batchApplication p]
    | _ => [.frameCompletion p]
  | .breaking => if (s.lowestBound p).isSome then [.breakDismissal p] else [.breakCompletion p]

/-- The events that may follow by themselves, at once or later (R129, R153, R160). -/
def State.readyEvents (s : State) : List Instr :=
  s.readyAtPort .a ++ s.readyAtPort .b ++
  (if s.link.state = .idle ∧ s.link.queue ≠ [] then [.sendEvent] else [])

/-- What may come next when no command waits: any due or ready event, or, while nothing is due, the passing of time
(none). -/
def State.nextChoices (s : State) : List (Option Instr) :=
  s.dueEvents.map some ++ s.readyEvents.map some ++ (if s.dueEvents = [] then [none] else [])

/-- The choice among them, which the spec leaves open (R5): a free value. -/
def State.chosen (s : State) : Option Instr :=
  (s.nextChoices[Config.choice s.choices % s.nextChoices.length]?).join

/-- The part after one more choice. -/
def State.counted (s : State) : State :=
  { s with choices := s.choices + 1 }

end Sys2Proof.Machine
end

