-- ==== Sys2Proof/Safety.lean ====
section
/-! DEFINITION. What the statements speak of: first the laws of the device, as the manual states them in its rules, each
a predicate of its own, which every step keeps; then what an event does to records, to the Publication Queue and to the
notices, and how an operation answers, in terms that do not lean on the meanings of the commands. -/

namespace Sys2Proof.Machine

/-! ### Laws of a record -/

/-- R2: the lower limit is at most the upper limit, and the fallback, the live value and the staged value, where
present, lie within the limits. -/
def Record.withinLimits (r : Record) : Prop :=
  r.lower.toInt ≤ r.upper.toInt ∧ within r.lower r.upper r.fallback ∧
    (∀ v, r.live = some v → within r.lower r.upper v) ∧
    (∀ e, r.staged = some e → within r.lower r.upper e.value)

/-- R3: which optional fields are present in which state, and that in HELD and LATCHED the live value equals the
fallback value. -/
def Record.fieldsFitState (r : Record) : Prop :=
  (r.live = none ↔ r.state = .dormant) ∧
    (r.holdCause = none ↔ r.state ≠ .held) ∧
    (r.refreshed = none ↔ r.holdCause ≠ some .expiry) ∧
    (r.state = .held ∨ r.state = .latched → r.live = some r.fallback) ∧
    (r.owner = none → r.staged = none)

/-- R105: the countdown runs exactly while the record is LIVE, owned and supervised; the hold timer runs exactly while
it is HELD with cause EXPIRY, and such a record is owned. -/
def Record.timersFitState (r : Record) : Prop :=
  (r.countdown ≠ .stopped ↔ r.state = .live ∧ r.owner ≠ none ∧ r.freshnessCode ≠ 0) ∧
    (r.holdTimer ≠ .stopped ↔ r.holdCause = some .expiry) ∧
    (r.holdCause = some .expiry → r.owner ≠ none)

/-! ### Laws of the part -/

/-- Every record of the table satisfies a predicate. -/
def State.everyRecord (s : State) (P : Record → Prop) : Prop :=
  ∀ i r, s.slot i = .holding r → P r

/-- R2 for every record of the table. -/
def State.limitsLaw (s : State) : Prop :=
  s.everyRecord Record.withinLimits

/-- R3 and R105 for every record of the table. -/
def State.shapeLaw (s : State) : Prop :=
  s.everyRecord (fun r => r.fieldsFitState ∧ r.timersFitState)

/-- The canonical form of the Record Table. -/
def State.tableLaw (s : State) : Prop :=
  s.table.wf = true

/-- R8: the Tag Index holds an entry for exactly the records of the table, and no tag appears in it twice (its tags
rise). -/
def State.indexLaw (s : State) : Prop :=
  s.tagIndex.Pairwise (fun a b => a.1 < b.1) ∧
    ∀ tag i, s.tagIndex.lookup tag = some i ↔ ∃ r, s.slot i = .holding r ∧ r.tag = tag

/-- R7: the FREE count and the VACATING count are the numbers of FREE and VACATING slots. -/
def State.countLaw (s : State) : Prop :=
  s.freeCount = (allSlots.filter (fun i => s.slot i = .free)).length ∧
    s.vacatingCount = (allSlots.filter (fun i => (s.slot i).isVacating)).length

/-- R33: every writer's owned count is the number of records it owns and does not exceed its quota, and a VACANT writer
owns none. -/
def State.ownedLaw (s : State) : Prop :=
  ∀ w, (s.writer w).ownedCount = (s.ownedSlots w).length ∧ (s.writer w).ownedCount ≤ (s.profile w).quota ∧
    ((s.writer w).binding = none → (s.writer w).ownedCount = 0)

/-- R49: an owned record's precedence lies between 1 and its owner's ceiling; an unowned record has precedence 0 and no
staged entry; an owner is ADMITTED. -/
def State.precedenceLaw (s : State) : Prop :=
  s.everyRecord fun r =>
    match r.owner with
    | none => r.precedence = 0 ∧ r.staged = none
    | some w =>
      1 ≤ r.precedence ∧ r.precedence ≤ (s.profile w).ceiling ∧ (s.writer w).binding ≠ none

/-- R118: while SAFE is active, no record is LIVE. -/
def State.safeLaw (s : State) : Prop :=
  s.safe.level = .active → s.everyRecord (fun r => r.state ≠ .live)

/-- R96: a group's cycle timer runs exactly while its period is not 0 and SAFE is released. -/
def State.cycleLaw (s : State) : Prop :=
  ∀ g, (s.groupEntry g).timer ≠ .stopped ↔ (s.groupEntry g).period ≠ 0 ∧ s.safe.level = .released

/-- R115: the stability interval runs exactly while the line is opposite to the filtered level. -/
def State.filterLaw (s : State) : Prop :=
  s.safe.stability ≠ .stopped ↔ s.safe.opposed = true

/-- R126: the Publication Queue holds at most one pending entry per slot. -/
def State.queueLaw (s : State) : Prop :=
  s.link.queue.Pairwise (fun a b => a.slot ≠ b.slot)

/-- R124, R125, R144: a frame is in flight exactly in SENDING and AWAITING_ACK, the link is enabled exactly while it is
not OFF, its timers run exactly in their states, an acknowledgement is noted only during a retransmission (R131), and
while it is OFF the queue is empty, no slot is VACATING and no acknowledgement byte is open. -/
def State.linkLaw (s : State) : Prop :=
  (s.link.inFlight ≠ none ↔ s.link.state = .sending ∨ s.link.state = .awaitingAck) ∧
    (s.link.settings.enable = true ↔ s.link.state ≠ .off) ∧
    (s.link.transmission ≠ .stopped ↔ s.link.state = .sending) ∧
    (s.link.ackTimer ≠ .stopped ↔ s.link.state = .awaitingAck) ∧
    (s.link.noted = true → s.link.state = .sending ∧ ∀ f, s.link.inFlight = some f → f.retries ≠ 0) ∧
    (s.link.state = .off →
      s.link.queue = [] ∧ s.link.openByte = none ∧ ∀ i, (s.slot i).isVacating = false)

/-- A RETIRE entry for the slot is pending or in flight. -/
def State.retireAwaited (s : State) (i : SlotNo) : Prop :=
  (∃ e ∈ s.link.queue, e.slot = i ∧ e.kind = .retire) ∨
    ∃ f, s.link.inFlight = some f ∧ f.entry.slot = i ∧ f.entry.kind = .retire

/-- R14: a slot is VACATING exactly when a RETIRE entry for it is pending or in flight. -/
def State.vacatingLaw (s : State) : Prop :=
  ∀ i, (s.slot i).isVacating = true ↔ s.retireAwaited i

/-- R127: a slot with a RETIRE frame in flight has no pending entry. -/
def State.inFlightLaw (s : State) : Prop :=
  ∀ f, s.link.inFlight = some f → f.entry.kind = .retire → s.pendingAt f.entry.slot = false

/-- R163, R147, R167 for one port: at most 32 notices; no break interval runs while select is inactive or a break is
being carried out; an open cursor stands below slot 256 and its opener is bound to the port. -/
def State.portLaw (s : State) (p : PortId) : Prop :=
  (s.port p).notices.length ≤ 32 ∧
    ((s.port p).breakInterval ≠ .stopped → (s.port p).transaction ≠ .inactive) ∧
    ((s.port p).service = .breaking → (s.port p).breakInterval = .stopped) ∧
    ∀ c, (s.port p).cursor = some c → c.nextSlot < 256 ∧ (s.writer c.writer).binding = some p

/-- R30: the profile of writer 0 is fixed, and every ceiling and quota lies in its range. -/
def State.profileLaw (s : State) : Prop :=
  s.profile 0 = { rights := 0b111111, ceiling := 15, quota := 256 } ∧
    ∀ w, (s.profile w).ceiling ≤ 15 ∧ (s.profile w).quota ≤ 256

/-- All the laws of the device together. -/
structure State.Lawful (s : State) : Prop where
  table : s.tableLaw
  limits : s.limitsLaw
  shape : s.shapeLaw
  index : s.indexLaw
  count : s.countLaw
  owned : s.ownedLaw
  precedence : s.precedenceLaw
  safe : s.safeLaw
  cycle : s.cycleLaw
  stability : s.filterLaw
  queue : s.queueLaw
  link : s.linkLaw
  vacating : s.vacatingLaw
  inFlight : s.inFlightLaw
  ports : ∀ p, s.portLaw p
  profiles : s.profileLaw

/-! ### Who speaks, and of which record -/

/-- The writer is ADMITTED and bound to the port its frame arrives on, so that an operation goes on to its own checks
(R32). -/
def State.speaks (s : State) (p : PortId) (w : WriterNo) : Prop :=
  (s.writer w).binding = some p

/-- A tag in range has an entry in the Tag Index, and the entry's slot holds the record (R9). -/
def State.names (s : State) (tag : Word16) (i : SlotNo) (r : Record) : Prop :=
  tagInRange tag ∧ s.tagIndex.lookup tag = some i ∧ s.slot i = .holding r

/-- The record a tag leads to, if any (R9). -/
def State.recordOf (s : State) (tag : Word16) : Option Record :=
  (s.tagIndex.lookup tag).bind (fun i => (s.slot i).record?)

/-- The code of a hold policy in an operand (10.1). -/
def HoldPolicy.code : HoldPolicy → Byte
  | .resume => 0
  | .latch => 1

/-! ### How an operation answers -/

/-- The part with a status and data as an operation's result and nothing else changed. -/
def State.withResult (s : State) (status : Status) (d : Data) : State :=
  { s with result := some { status := status, data := d } }

/-- The operation command answers a status, and unless that status is OK nothing but its result changes and the result
carries no data (R153, R154). -/
def AnswersInOrder (c : Instr) (s : State) (status : Status) : Prop :=
  ∃ t, exec c s = .next t ∧ t.result.map OpResult.status = some status ∧
    (status ≠ .ok → t = s.withResult status .empty)

/-- The port, the writer and the operation of an operation command. -/
def operationOf : Instr → Option (PortId × WriterNo × Op)
  | .admitWriter p w => some (p, w, .admitWriter)
  | .dismiss p w t => some (p, w, .dismiss t)
  | .setProfile p w t r c q => some (p, w, .setProfile t r c q)
  | .readProfile p w t => some (p, w, .readProfile t)
  | .create p w tag g lo hi fb c pub f hp hd o => some (p, w, .create tag g lo hi fb c pub f hp hd o)
  | .retire p w tag => some (p, w, .retire tag)
  | .read p w tag => some (p, w, .read tag)
  | .clearTable p w => some (p, w, .clearTable)
  | .claim p w tag q => some (p, w, .claim tag q)
  | .release p w tag => some (p, w, .release tag)
  | .stage p w tag v => some (p, w, .stage tag v)
  | .touch p w tag => some (p, w, .touch tag)
  | .unlatch p w tag => some (p, w, .unlatch tag)
  | .setLimits p w tag lo hi => some (p, w, .setLimits tag lo hi)
  | .setFallback p w tag v => some (p, w, .setFallback tag v)
  | .setSupervision p w tag f hp hd o => some (p, w, .setSupervision tag f hp hd o)
  | .setGroup p w tag g => some (p, w, .setGroup tag g)
  | .commit p w g => some (p, w, .commit g)
  | .setCycle p w g d => some (p, w, .setCycle g d)
  | .setTrigger p w l e g => some (p, w, .setTrigger l e g)
  | .readGroup p w g => some (p, w, .readGroup g)
  | .linkStart p w => some (p, w, .linkStart)
  | .linkFlush p w => some (p, w, .linkFlush)
  | .resync p w => some (p, w, .resync)
  | .setLink p w e b t r => some (p, w, .setLink e b t r)
  | .scan p w st o g => some (p, w, .scan st o g)
  | .scanNext p w => some (p, w, .scanNext)
  | .poll p w => some (p, w, .poll)
  | .status p w => some (p, w, .status)
  | .powerOnReset | .rstN | .selectActivation _ | .request _ _ | .frameCompletion _ | .readout _ | .readoutEnd _
  | .transactionIgnored _ _ | .portBreak _ | .breakDismissal _ | .breakCompletion _ | .freshnessExpiry _
  | .holdTimerExpiry _ | .cycleTimerExpiry _ | .risingEdge _ | .safeNChange _ | .safeEntry | .safeRelease | .sendEvent
  | .endOfTransmission | .acknowledgement _ _ | .acknowledgementTimerExpiry | .batchApplication _ | .clockEdge _
  | .selectRelease _ | .rxpByte _ _ _ => none

/-! ### What an event hands to the Publication Queue (R12, R14) -/

/-- An entry handed to the queue: while the slot has a pending entry, UPDATE adds nothing and RETIRE takes its place;
otherwise the entry joins the tail. -/
def handOver (q : List Entry) (e : Entry) : List Entry :=
  if q.any (fun x => x.slot == e.slot) then
    match e.kind with
    | .update => q
    | .retire => q.map (fun x => if x.slot = e.slot then e else x)
  else q ++ [e]

/-- Whether one event's change of a record is one that R11 counts: of the live value, or of the state. -/
def Record.differs (old new : Record) : Bool :=
  old.live != new.live || old.state != new.state

/-- The record an event leaves: its new fields, with the sequence of R11. -/
def Record.after (old new : Record) : Record :=
  { new with sequence := if old.differs new then old.sequence + 1 else old.sequence }

/-- The entry one event's change of a record hands on, if any (R12). -/
def State.updateEntry (s : State) (i : SlotNo) (old new : Record) : List Entry :=
  if old.differs new ∧ old.publish ∧ s.link.state ≠ .off then [{ slot := i, tag := old.tag, kind := .update }] else []

/-- Whether a record's retirement waits for the link: it publishes and the link is not OFF (R14). -/
def State.waits (s : State) (r : Record) : Prop :=
  r.publish = true ∧ s.link.state ≠ .off

/-- The entry a retirement hands on, if any (R14). -/
def State.retireEntry (s : State) (i : SlotNo) (r : Record) : List Entry :=
  if r.publish ∧ s.link.state ≠ .off then [{ slot := i, tag := r.tag, kind := .retire }] else []

/-- What a retired record's slot holds next (R14). -/
def State.retiredSlot (s : State) (r : Record) : Slot :=
  if r.publish ∧ s.link.state ≠ .off then .vacating r.tag r.sequence else .free

/-! ### Events on one record -/

/-- One event leaves the record of a slot as given, hands on what R12 says, and leaves every other slot as it was. -/
def State.OneRecordBecomes (s t : State) (i : SlotNo) (old new : Record) : Prop :=
  t.slot i = .holding (old.after new) ∧ (∀ j, j ≠ i → t.slot j = s.slot j) ∧
    t.link.queue = (s.updateEntry i old new).foldl handOver s.link.queue

/-- One event retires the record of a slot: its tag leaves the index, its owner's count falls by 1, its slot becomes
VACATING or FREE and is counted so, and the RETIRE entry is handed on (R13, R14). -/
def State.OneRecordRetired (s t : State) (i : SlotNo) (r : Record) : Prop :=
  t.slot i = s.retiredSlot r ∧ (∀ j, j ≠ i → t.slot j = s.slot j) ∧
    (∀ tag, t.tagIndex.lookup tag = if tag = r.tag then none else s.tagIndex.lookup tag) ∧
    (∀ w, t.writer w =
      if r.owner = some w then { s.writer w with ownedCount := (s.writer w).ownedCount - 1 } else s.writer w) ∧
    (s.waits r → t.freeCount = s.freeCount ∧ t.vacatingCount = s.vacatingCount + 1) ∧
    (¬ s.waits r → t.freeCount = s.freeCount + 1 ∧ t.vacatingCount = s.vacatingCount) ∧
    t.link.queue = (s.retireEntry i r).foldl handOver s.link.queue

/-- The record after a loss of owner under orphan policy KEEP or FALLBACK: the rows of R40 and R41. -/
def Record.lossRow (r : Record) (safeActive : Bool) : Record :=
  let bare := { r with owner := none, precedence := 0, staged := none, countdown := .stopped }
  let inForce := if r.orphan = .fallback then some r.fallback else r.live
  match r.state, r.holdCause with
  | .live, _ => { bare with live := inForce }
  | .held, some .expiry =>
    if safeActive then { bare with holdCause := some .safe, refreshed := none, holdTimer := .stopped }
    else { bare with state := .live, live := inForce, holdCause := none, refreshed := none, holdTimer := .stopped }
  | _, _ => bare

/-! ### Events on every record -/

/-- A slot whose record becomes what a function of it gives, with the sequence of R11; a slot without a record stays. -/
def Slot.after (f : Record → Record) : Slot → Slot
  | .holding r => .holding (r.after (f r))
  | .vacating tag sequence => .vacating tag sequence
  | .free => .free

/-- What the change of a slot's record by a function hands on (R12). -/
def State.updateEntryAt (s : State) (f : Record → Record) (i : SlotNo) : List Entry :=
  match s.slot i with
  | .holding r => s.updateEntry i r (f r)
  | _ => []

/-- One event leaves every record of the table as a function of it gives, each with the sequence of R11, and hands the
changes on in ascending slot order (R12). -/
def State.EveryRecordBecomes (s t : State) (f : Record → Record) : Prop :=
  (∀ i, t.slot i = (s.slot i).after f) ∧
    t.link.queue = (allSlots.flatMap (s.updateEntryAt f)).foldl handOver s.link.queue

/-- The record after a commit of its group: the rows of R89. -/
def Record.commitRow (r : Record) : Record :=
  match r.state, r.staged with
  | .dormant, some e =>
    { r with
      state := .live, live := some e.value, staged := none,
      countdown := if r.freshnessCode = 0 then .stopped else .running (ms (10 * r.freshnessCode)) }
  | .live, some e => { r with live := some e.value, staged := none }
  | _, _ => r

/-- A commit of a target: the rows of R89 for every record it concerns, and R90 for every group it concerns. Nothing
but the table, the queue and the group entries changes. -/
def State.Commits (s t : State) (target : CommitTarget) : Prop :=
  s.EveryRecordBecomes t (fun r => if concerns target r.group then r.commitRow else r) ∧
    (∀ g, t.groupEntry g =
      if concerns target g then
        { period := (s.groupEntry g).period, count := (s.groupEntry g).count + 1,
          timer := if (s.groupEntry g).period = 0 then (s.groupEntry g).timer
            else .running (ms (s.groupEntry g).period.toNat) }
      else s.groupEntry g) ∧
    t = { s with
      table := t.table, groups := t.groups, link := { s.link with queue := t.link.queue }, result := t.result }

/-- The number of records that a commit changes: those of a concerned group that the last column of R89 marks. -/
def State.changedBy (s : State) (target : CommitTarget) : Nat :=
  (allSlots.filter (fun i =>
    match s.slot i with
    | .holding r => concerns target r.group && r.differs r.commitRow
    | _ => false)).length

/-! ### A dismissal (R38) -/

/-- Whether a slot's record is owned by a writer. -/
def State.ownedBy (s : State) (w : WriterNo) (i : SlotNo) : Bool :=
  match s.slot i with
  | .holding r => r.owner == some w
  | _ => false

/-- Whether a slot's record is owned by a writer and is retired when it loses that owner. -/
def State.retiredFrom (s : State) (w : WriterNo) (i : SlotNo) : Bool :=
  match s.slot i with
  | .holding r => r.owner == some w && r.orphan == .retire
  | _ => false

/-- Whether a slot's record is so retired and its slot becomes VACATING. -/
def State.vacatedFrom (s : State) (w : WriterNo) (i : SlotNo) : Bool :=
  match s.slot i with
  | .holding r => r.owner == some w && r.orphan == .retire && r.publish && s.link.state != .off
  | _ => false

/-- What a slot holds after the loss of owner of a writer's record in it (R39). -/
def State.slotWithout (s : State) (w : WriterNo) (i : SlotNo) : Slot :=
  match s.slot i with
  | .holding r =>
    if r.owner = some w then
      if r.orphan = .retire then s.retiredSlot r else .holding (r.after (r.lossRow s.safeActive))
    else .holding r
  | x => x

/-- What that loss of owner hands on (R12, R14). -/
def State.entryWithout (s : State) (w : WriterNo) (i : SlotNo) : List Entry :=
  match s.slot i with
  | .holding r =>
    if r.owner = some w then
      if r.orphan = .retire then s.retireEntry i r else s.updateEntry i r (r.lossRow s.safeActive)
    else []
  | _ => []

/-- Whether a slot's record has a tag. -/
def Slot.tagged (x : Slot) (tag : Word16) : Bool :=
  match x with
  | .holding r => r.tag == tag
  | _ => false

/-- The dismissal of a writer: every record it owns loses its owner in ascending slot order, its cursor closes, and it
becomes VACANT; no notice is queued and no profile changes (R38). -/
def State.Dismisses (s t : State) (w : WriterNo) : Prop :=
  (∀ i, t.slot i = s.slotWithout w i) ∧
    t.link.queue = (allSlots.flatMap (s.entryWithout w)).foldl handOver s.link.queue ∧
    (∀ tag, t.tagIndex.lookup tag =
      if allSlots.any (fun i => s.retiredFrom w i && (s.slot i).tagged tag) then none else s.tagIndex.lookup tag) ∧
    t.freeCount + (allSlots.filter (s.vacatedFrom w)).length =
      s.freeCount + (allSlots.filter (s.retiredFrom w)).length ∧
    t.vacatingCount = s.vacatingCount + (allSlots.filter (s.vacatedFrom w)).length ∧
    t.writer w =
      { binding := none, ownedCount := (s.writer w).ownedCount - (allSlots.filter (s.ownedBy w)).length } ∧
    (∀ v, v ≠ w → t.writer v = s.writer v) ∧
    (∀ p, t.port p =
      if (s.writer w).binding = some p ∧ (s.port p).cursor.any (fun c => c.writer == w) then
        { s.port p with cursor := none }
      else s.port p) ∧
    t = { s with
      table := t.table, tagIndex := t.tagIndex, freeCount := t.freeCount, vacatingCount := t.vacatingCount,
      writers := t.writers, link := { s.link with queue := t.link.queue }, portA := t.portA, portB := t.portB,
      result := t.result }

/-! ### Notices (R34, R164) -/

/-- A port after the arrival of a notice: at the tail of fewer than 32, or dropped with the overflow flag set. -/
def Port.took (x y : Port) (n : Notice) : Prop :=
  (x.notices.length < 32 → y = { x with notices := x.notices ++ [n] }) ∧
    (¬ x.notices.length < 32 → y = { x with noticeOverflow := true })

/-- A notice for a writer reaches the port the writer is bound to, if any, and no other. -/
def State.Notifies (s t : State) (w : WriterNo) (n : Notice) : Prop :=
  ∀ p, if (s.writer w).binding = some p then (s.port p).took (t.port p) n else t.port p = s.port p

/-- A device notice reaches both ports. -/
def State.NotifiesBoth (s t : State) (n : Notice) : Prop :=
  ∀ p, (s.port p).took (t.port p) n

/-! ### The link's frame in flight (R132, R133, R136) -/

/-- The frame in flight is complete: the link is IDLE, and a RETIRE frame's VACATING slot, which has no pending entry, is
FREE; an UPDATE frame changes no slot (R132). -/
def State.FrameCompletes (s t : State) (f : InFlight) : Prop :=
  (f.entry.kind = .update →
    t.table = s.table ∧ t.freeCount = s.freeCount ∧ t.vacatingCount = s.vacatingCount) ∧
    (f.entry.kind = .retire → (s.slot f.entry.slot).isVacating = true → s.pendingAt f.entry.slot = false →
      (∀ i, t.slot i = if i = f.entry.slot then .free else s.slot i) ∧ t.freeCount = s.freeCount + 1 ∧
        t.vacatingCount = s.vacatingCount - 1) ∧
    t = { s with
      table := t.table, freeCount := t.freeCount, vacatingCount := t.vacatingCount,
      link := { s.link with
        state := .idle, inFlight := none, noted := false, ackTimer := .stopped, transmission := .stopped } }

/-- The queue after an abandoned frame's entry is returned to its head, or dropped: while the slot has a pending entry,
and for an UPDATE whose slot holds no LIVE, HELD or LATCHED record under the entry's tag (R136, step 2). -/
def State.queueWithReturned (s : State) (e : Entry) : List Entry :=
  let named : Bool :=
    match s.slot e.slot with
    | .holding r => r.tag == e.tag && r.state != .dormant
    | _ => false
  if s.link.queue.any (fun x => x.slot == e.slot) then s.link.queue
  else if e.kind = .retire ∨ named = true then e :: s.link.queue
  else s.link.queue

/-- A failed transmission: with a retry left the latched frame is sent again unchanged; otherwise the link goes DOWN and
tells both ports (R133, R136, R137). -/
def State.TransmissionFails (s t : State) (f : InFlight) : Prop :=
  (f.retries < s.link.settings.retryLimit →
    t = { s with link := { s.link with
      state := .sending, inFlight := some { f with retries := f.retries + 1 }, ackTimer := .stopped,
      transmission := .running (140 * bitTime s.link.settings.bitRate) s.link.settings.bitRate } }) ∧
    (s.link.settings.retryLimit ≤ f.retries →
      s.NotifiesBoth t .linkDown ∧
      t = { s with
        link := { s.link with
          state := .down, queue := s.queueWithReturned f.entry, inFlight := none, noted := false,
          ackTimer := .stopped, transmission := .stopped }
        portA := t.portA
        portB := t.portB })

/-! ### The passing of time (R105) -/

/-- A timer one unit later: a RUNNING one has one unit less left, and stays at 0 until its expiry is taken; a STOPPED one
stays STOPPED. -/
def Timer.OneLess (x y : Timer) : Prop :=
  (x = .stopped → y = .stopped) ∧ ∀ n, x = .running n → y = .running (n - 1)

/-- A hold timer one unit later, with the period it was started with. -/
def HoldTimer.OneLess (x y : HoldTimer) : Prop :=
  (x = .stopped → y = .stopped) ∧ ∀ n period, x = .running n period → y = .running (n - 1) period

/-- A transmission one unit later, at the rate it began with. -/
def Transmission.OneLess (x y : Transmission) : Prop :=
  (x = .stopped → y = .stopped) ∧ ∀ n rate, x = .running n rate → y = .running (n - 1) rate

/-- A slot one unit later: the two timers of its record move, and nothing else does. -/
def Slot.OneLess (x y : Slot) : Prop :=
  (∀ r, x = .holding r → ∃ countdown holdTimer,
    y = .holding { r with countdown := countdown, holdTimer := holdTimer } ∧ r.countdown.OneLess countdown ∧
      r.holdTimer.OneLess holdTimer) ∧
    (x.record? = none → y = x)

/-- A unit of time: every timer of the part has one unit less left, an open acknowledgement byte and the start bit of a
byte under way are one unit older, and nothing else changes. -/
def State.OneUnitPasses (s t : State) : Prop :=
  (∀ i, (s.slot i).OneLess (t.slot i)) ∧
    (∀ g, t.groupEntry g = { s.groupEntry g with timer := (t.groupEntry g).timer } ∧
      (s.groupEntry g).timer.OneLess (t.groupEntry g).timer) ∧
    s.safe.stability.OneLess t.safe.stability ∧ s.link.ackTimer.OneLess t.link.ackTimer ∧
    s.link.transmission.OneLess t.link.transmission ∧
    t.link.openByte = s.link.openByte.map (fun o => { kind := o.kind, age := o.age + 1 }) ∧
    t.rxp = s.rxp.map (fun r => { rate := r.rate, age := r.age + 1 }) ∧
    (∀ p, (s.port p).breakInterval.OneLess (t.port p).breakInterval) ∧
    t = { s with
      table := t.table
      groups := t.groups
      safe := { s.safe with stability := t.safe.stability }
      link := { s.link with
        ackTimer := t.link.ackTimer, transmission := t.link.transmission, openByte := t.link.openByte }
      rxp := t.rxp
      portA := { s.portA with breakInterval := t.portA.breakInterval }
      portB := { s.portB with breakInterval := t.portB.breakInterval } }

/-! ### Bytes sent, field by field (10.3 to 10.6) -/

/-- The byte at an offset. -/
def byteAt (b : List Byte) (n : Nat) : Byte :=
  (b[n]?).getD 0

/-- The 16-bit field at an offset, most significant byte first. -/
def wordAt (b : List Byte) (n : Nat) : Word16 :=
  byteAt b n ++ byteAt b (n + 1)

/-- The 32-bit field at an offset, most significant byte first. -/
def valueAt (b : List Byte) (n : Nat) : Value :=
  (wordAt b n ++ wordAt b (n + 2) : BitVec 32)

/-- The eight bits of a byte, bit 0 first. -/
def bitsOf (x : Byte) : List Bool :=
  (List.range 8).map x.getLsbD

/-- A number as a 16-bit field. -/
def wordOf (n : Nat) : Word16 :=
  BitVec.ofNat 16 n

/-- A number as a byte. -/
def byteOf (n : Nat) : Byte :=
  BitVec.ofNat 8 n

/-- The 35 bytes of a record description (10.5); the bits of its flag bytes that the table names for nothing are 0, the
model's choice (notes/assumptions/20.md), and so in the other flag bytes below. -/
def Description.SentAs (d : Description) (b : List Byte) : Prop :=
  b.length = 35 ∧ byteAt b 0 = byteOf d.slot.val ∧ wordAt b 1 = d.tag ∧ byteAt b 3 = d.state.slotState.code ∧
    bitsOf (byteAt b 4) =
      [d.live.isSome, d.staged.isSome, d.staged.any Staged.clamped, d.holdCause.isSome, d.holdCause == some .safe,
        d.refreshed.isSome, d.refreshed == some true, false] ∧
    byteAt b 5 = ownerByte d.owner ∧ byteAt b 6 = byteOf d.precedence ∧ valueAt b 7 = d.live.getD 0 ∧
    valueAt b 11 = (d.staged.map Staged.value).getD 0 ∧ valueAt b 15 = d.fallback ∧ valueAt b 19 = d.lower ∧
    valueAt b 23 = d.upper ∧
    bitsOf (byteAt b 27) =
      [d.clamp, d.publish, d.holdPolicy == .latch, d.pending, false, false, false, false] ∧
    byteAt b 28 = byteOf (d.group.val + 1) ∧ wordAt b 29 = wordOf d.freshnessCode ∧
    byteAt b 31 = byteOf d.holdPeriod.val ∧ byteAt b 32 = d.orphan.code ∧ wordAt b 33 = d.sequence

/-- The 14 bytes of a short view (10.5). -/
def ShortView.SentAs (v : ShortView) (b : List Byte) : Prop :=
  b.length = 14 ∧ byteAt b 0 = byteOf v.slot.val ∧ wordAt b 1 = v.tag ∧ byteAt b 3 = v.state.slotState.code ∧
    byteAt b 4 = ownerByte v.owner ∧ byteAt b 5 = byteOf v.precedence ∧ byteAt b 6 = byteOf (v.group.val + 1) ∧
    bitsOf (byteAt b 7) =
      [v.live.isSome, v.staged, v.holdCause.isSome, v.holdCause == some .safe, false, false, false, false] ∧
    valueAt b 8 = v.live.getD 0 ∧ wordAt b 12 = v.sequence

/-- The 6 bytes of a notice entry: kind, tag, writer, precedence, level; an absent field is 0 (10.5). -/
def Notice.SentAs (n : Notice) (b : List Byte) : Prop :=
  b.length = 6 ∧
    match n with
    | .claimLost tag w precedence =>
      byteAt b 0 = 1 ∧ wordAt b 1 = tag ∧ byteAt b 3 = byteOf w.val ∧ byteAt b 4 = byteOf precedence ∧ byteAt b 5 = 0
    | .holdEntered tag => byteAt b 0 = 2 ∧ wordAt b 1 = tag ∧ wordAt b 3 = 0 ∧ byteAt b 5 = 0
    | .latched tag => byteAt b 0 = 3 ∧ wordAt b 1 = tag ∧ wordAt b 3 = 0 ∧ byteAt b 5 = 0
    | .resumed tag => byteAt b 0 = 4 ∧ wordAt b 1 = tag ∧ wordAt b 3 = 0 ∧ byteAt b 5 = 0
    | .safeChanged level => byteAt b 0 = 5 ∧ wordAt b 1 = 0 ∧ wordAt b 3 = 0 ∧ byteAt b 5 = level.code
    | .linkDown => byteAt b 0 = 6 ∧ wordAt b 1 = 0 ∧ wordAt b 3 = 0 ∧ byteAt b 5 = 0

/-- The data of a result, with the widths of 10.3. -/
def Data.SentAs (d : Data) (b : List Byte) : Prop :=
  match d with
  | .empty => b = []
  | .dismissed unowned retired => b.length = 4 ∧ wordAt b 0 = wordOf unowned ∧ wordAt b 2 = wordOf retired
  | .profile w f x =>
    b.length = 9 ∧ byteAt b 0 = byteOf w.val ∧ byteAt b 1 = f.rights.setWidth 8 ∧ byteAt b 2 = byteOf f.ceiling ∧
      wordAt b 3 = wordOf f.quota ∧ byteAt b 5 = yesNoByte x.binding.isSome ∧ byteAt b 6 = portByte x.binding ∧
      wordAt b 7 = wordOf x.ownedCount
  | .slot i => b = [byteOf i.val]
  | .slotState i state => b = [byteOf i.val, state.code]
  | .description d => d.SentAs b
  | .claimed i kind owner precedence => b = [byteOf i.val, kind.code, ownerByte owner, byteOf precedence]
  | .holder owner precedence => b = [byteOf owner.val, byteOf precedence]
  | .staged i value clamped =>
    b.length = 6 ∧ byteAt b 0 = byteOf i.val ∧ valueAt b 1 = value ∧ byteAt b 5 = yesNoByte clamped
  | .touched i effect => b = [byteOf i.val, effect.code]
  | .outside f l g =>
    b.length = 1 ∧ bitsOf (byteAt b 0) = [f, l, g, false, false, false, false, false]
  | .fallbackSet i changed => b = [byteOf i.val, yesNoByte changed]
  | .regrouped i previous => b = [byteOf i.val, byteOf (previous.val + 1)]
  | .committed changed count => b.length = 4 ∧ wordAt b 0 = wordOf changed ∧ wordAt b 2 = count
  | .previousPeriod period => b = [period]
  | .previousTrigger e => b = [yesNoByte e.enabled, byteOf e.group.val]
  | .group g e members withStaged trg0 trg1 =>
    b.length = 13 ∧ byteAt b 0 = byteOf (g.val + 1) ∧ byteAt b 1 = e.period ∧ byteAt b 2 = e.timer.code ∧
      wordAt b 3 = e.count ∧ wordAt b 5 = wordOf members ∧ wordAt b 7 = wordOf withStaged ∧
      byteAt b 9 = yesNoByte trg0.enabled ∧ byteAt b 10 = byteOf trg0.group.val ∧
      byteAt b 11 = yesNoByte trg1.enabled ∧ byteAt b 12 = byteOf trg1.group.val
  | .entries count => b.length = 2 ∧ wordAt b 0 = wordOf count
  | .flushed discarded freed => b.length = 4 ∧ wordAt b 0 = wordOf discarded ∧ wordAt b 2 = wordOf freed
  | .previousLink x after =>
    b = [yesNoByte x.enable, x.bitRate.code, byteOf x.timeoutCode, byteOf x.retryLimit, after.code]
  | .views atEnd next list =>
    b.length = 4 + 14 * list.length ∧ byteAt b 0 = byteOf list.length ∧ byteAt b 1 = yesNoByte atEnd ∧
      wordAt b 2 = wordOf next ∧
      ∀ k (v : ShortView), list[k]? = some v → v.SentAs ((b.drop (4 + 14 * k)).take 14)
  | .notices overflow left list =>
    b.length = 3 + 6 * list.length ∧ byteAt b 0 = byteOf list.length ∧ byteAt b 1 = yesNoByte overflow ∧
      byteAt b 2 = byteOf left ∧ ∀ k (n : Notice), list[k]? = some n → n.SentAs ((b.drop (3 + 6 * k)).take 6)
  | .status level seen refused link pending free vacating bindings =>
    b.length = 9 + bindings.length ∧ byteAt b 0 = level.code ∧
      bitsOf (byteAt b 1) = [seen, refused, false, false, false, false, false, false] ∧ byteAt b 2 = link.code ∧
      wordAt b 3 = wordOf pending ∧ wordAt b 5 = wordOf free ∧ wordAt b 7 = wordOf vacating ∧
      ∀ k x, bindings[k]? = some x → byteAt b (9 + k) = portByte x
  | .cleared retired vacating => b.length = 4 ∧ wordAt b 0 = wordOf retired ∧ wordAt b 2 = wordOf vacating

/-- How many bytes results take in a response: status, data length and data of each (10.4). -/
def resultsLength (results : List OpResult) : Nat :=
  (results.map (fun x => 2 + x.data.bytes.length)).sum

/-- The bytes of a response: seven bytes of header, each result at its offset, and the CRC of all before it (10.4). -/
def Response.SentAs (r : Response) (b : List Byte) : Prop :=
  b.length = 9 + resultsLength r.results ∧ (wordAt b 0).toNat = b.length ∧ byteAt b 2 = r.sequence ∧
    byteAt b 3 = r.status.code ∧
    bitsOf (byteAt b 4) =
      [r.overrun, r.previousUnread, r.noticeOverflow, false, false, false, false, false] ∧
    byteAt b 5 = byteOf r.noticeCount ∧ byteAt b 6 = byteOf r.results.length ∧
    (∀ before x rest, r.results = before ++ x :: rest →
      byteAt b (7 + resultsLength before) = x.status.code ∧
        (byteAt b (8 + resultsLength before)).toNat = x.data.bytes.length ∧
        (b.drop (9 + resultsLength before)).take x.data.bytes.length = x.data.bytes) ∧
    wordAt b (b.length - 2) = crc16 (b.take (b.length - 2))

/-- The 14 bytes of a publication frame: start byte, eleven bytes, and their CRC (10.6). -/
def PubFrame.SentAs (f : PubFrame) (b : List Byte) : Prop :=
  b.length = 14 ∧ byteAt b 0 = 0x7E ∧ byteAt b 1 = f.number ∧ byteAt b 2 = f.kind.code ∧ wordAt b 3 = f.tag ∧
    wordAt b 5 = f.sequence ∧ byteAt b 7 = f.state.code ∧ valueAt b 8 = f.value ∧
    wordAt b 12 = crc16 ((b.drop 1).take 11)

/-! ### Scans (R167, R169) -/

/-- Whether a record passes the filter that three operand bytes of a SCAN spell (R167, 10.3). -/
def Record.passes (states owner group : Byte) (r : Record) : Bool :=
  (states == 0 || states.getLsbD (match r.state with | .dormant => 0 | .live => 1 | .held => 2 | .latched => 3)) &&
    (owner == 0xFF || (owner == 0xFE && r.owner.isNone) || r.owner.any (fun w => w.val == owner.toNat)) &&
    (group == 0xFF || group.toNat == r.group.val + 1)

/-- The short view of a record, item by item (R169). -/
def viewFor (i : SlotNo) (r : Record) : ShortView where
  slot := i
  tag := r.tag
  state := r.state
  owner := r.owner
  precedence := r.precedence
  group := r.group
  live := r.live
  holdCause := r.holdCause
  staged := r.staged.isSome
  sequence := r.sequence

/-- The views of the records that pass a test, from a slot on, in ascending slot order. -/
def State.viewsFrom (s : State) (next : Nat) (test : Record → Bool) : List ShortView :=
  allSlots.flatMap (fun i =>
    match s.slot i with
    | .holding r => if next ≤ i.val ∧ test r then [viewFor i r] else []
    | _ => [])

/-- What a walk reports and where it leaves the cursor: the first eight views, and either the slot after the eighth or,
with fewer than eight or the eighth in slot 255, slot 256 with the cursor closed (R169). -/
def State.Walks (s t : State) (p : PortId) (w : WriterNo) (f : Filter) (next : Nat) (test : Record → Bool) : Prop :=
  let found := s.viewsFrom next test
  ∃ after, (∀ v, found[7]? = some v → after = v.slot.val + 1) ∧ (found.length < 8 → after = 256) ∧
    t = (s.setPort p { s.port p with
      cursor := if after = 256 then none else some { writer := w, filter := f, nextSlot := after } }).withResult .ok
        (.views (after == 256) after (found.take 8))

end Sys2Proof.Machine
end

