-- ==== Sys2Proof/Certificates/Slice0/Obligations.lean ====
section
/-! DEFINITION. The statements for the provers, in the order of the manual's chapters. Each says what a command does in a
state that meets conditions on the state and its operands alone, with everything it leaves unchanged. -/

open Sys2Proof Sys2Proof.Machine

/-! ### Commands, the queue and time -/

/-- The model's queue (notes/assumptions/1.md): a step takes the command at the front and gives it the rest. -/
def Obligations.StepRunsFrontCommand : Prop :=
  ∀ (c : Instr) (rest : List Instr) (s : State),
    step { s with pending := c :: rest } = exec c { s with pending := rest }

/-- The model's choice (notes/assumptions/1.md, 2.md, 3.md): with no command waiting, the part takes one of its own
events, or, only while no expiry is due, a unit of time passes, in which every RUNNING timer falls by 1 and an open
acknowledgement byte and a byte under way on RXP age by 1 (R105, R176). An expiry is due exactly when its timer has run out. The events that may
follow by themselves are the application of a batch or the completion of another frame in service, the next dismissal or
the completion of a break, and a send event (R48, R129, R153, R160). -/
def Obligations.EmptyQueueTakesOwnEventOrTime : Prop :=
  ∀ s : State,
    (s.pending = [] →
      (∃ c, (c ∈ s.dueEvents ∨ c ∈ s.readyEvents) ∧ step s = exec c { s with choices := s.choices + 1 }) ∨
        (s.dueEvents = [] ∧ step s = .next ({ s with choices := s.choices + 1 } : State).tick)) ∧
    s.OneUnitPasses s.tick ∧
    (∀ c : Instr, c ∈ s.dueEvents ↔
      (∃ i r, c = .freshnessExpiry i ∧ s.slot i = .holding r ∧ r.countdown = .running 0) ∨
      (∃ i r d, c = .holdTimerExpiry i ∧ s.slot i = .holding r ∧ r.holdTimer = .running 0 d) ∨
      (∃ g, c = .cycleTimerExpiry g ∧ (s.groupEntry g).timer = .running 0) ∨
      (c = (if s.safe.lineHigh then .safeRelease else .safeEntry) ∧ s.safe.stability = .running 0) ∨
      (∃ rate, c = .endOfTransmission ∧ s.link.transmission = .running 0 rate) ∨
      (c = .acknowledgementTimerExpiry ∧ s.link.ackTimer = .running 0) ∨
      (∃ p, c = .portBreak p ∧ (s.port p).breakInterval = .running 0)) ∧
    ∀ c : Instr, c ∈ s.readyEvents ↔
      (∃ p f w ops, c = .batchApplication p ∧ (s.port p).service = .serving f ∧ f.judgement = .ok w ops) ∨
      (∃ p f, c = .frameCompletion p ∧ (s.port p).service = .serving f ∧ ∀ w ops, f.judgement ≠ .ok w ops) ∨
      (∃ p w, c = .breakDismissal p ∧ (s.port p).service = .breaking ∧ (s.writer w).binding = some p) ∨
      (∃ p, c = .breakCompletion p ∧ (s.port p).service = .breaking ∧ ∀ w, (s.writer w).binding ≠ some p) ∨
      (c = .sendEvent ∧ s.link.state = .idle ∧ s.link.queue ≠ [])

/-- No command stops the part: each gives a next state, in every state, and leaves the waiting commands alone (R153: a
refused operation is a result; notes/assumptions/16.md). -/
def Obligations.EveryCommandCompletes : Prop :=
  ∀ (c : Instr) (s : State), ∃ t, exec c s = .next t ∧ t.pending = s.pending

/-! ### Reset -/

/-- R27, R30, R47, R104, R116, R123, R146, R162, R172: both resets leave the values the manual gives, whatever was in
progress, but that a low SAFE_N starts the stability interval and an active select line the break interval. TXP is high
(R175), and no byte is under way on RXP (notes/assumptions/12.md). The model's own fields, the line levels and the waiting commands are as notes/assumptions/8.md says: `result` is
absent, and `choices`, the line levels and the waiting commands stay. -/
def Obligations.BothResetsGiveStatedValues : Prop :=
  ∀ s : State, ∃ t, exec .powerOnReset s = .next t ∧ exec .rstN s = .next t ∧
    (∀ i, t.slot i = .free) ∧ t.tagIndex = [] ∧ t.freeCount = 256 ∧ t.vacatingCount = 0 ∧
    (∀ w, t.writer w = { binding := none, ownedCount := 0 }) ∧
    t.profile 0 = { rights := 0b111111, ceiling := 15, quota := 256 } ∧
    (∀ w, w ≠ 0 → t.profile w = { rights := 0, ceiling := 0, quota := 0 }) ∧
    (∀ g, t.groupEntry g = { period := 0, timer := .stopped, count := 0 }) ∧
    (∀ l, t.trigger l = { enabled := false, group := 1 }) ∧
    t.safe =
      { level := .released, stability := if s.safe.lineHigh then .stopped else .running (ms 1), seenActive := false,
        commitRefused := false, lineHigh := s.safe.lineHigh } ∧
    t.link =
      { state := .off, settings := { enable := false, bitRate := .mbit1, timeoutCode := 4, retryLimit := 3 },
        nextNumber := 0, inFlight := none, noted := false, ackTimer := .stopped, transmission := .stopped,
        openByte := none, queue := [] } ∧
    (∀ p, t.port p =
      { service := .ready, stored := none, duplicate := none, overrun := false, unreadDiscarded := false,
        breakInterval := if (s.port p).transaction = .inactive then .stopped else .running (ms 5),
        transaction := if (s.port p).transaction = .inactive then .inactive else .lost,
        notices := [], noticeOverflow := false, cursor := none }) ∧
    t.link.txp = true ∧ t.rxp = none ∧ t.result = none ∧ t.choices = s.choices ∧ t.pending = s.pending

/-- The state after reset meets every law of the device. -/
def Obligations.ResetStateIsLawful : Prop :=
  State.reset.Lawful

/-! ### Admission and the order of checks -/

/-- R32: for every operation but ADMIT, admission and port binding are judged before anything else. That this holds of a
SCAN_NEXT by an opener that was dismissed, for which R170's example names NO_CURSOR, is the model's choice
(notes/assumptions/22.md). -/
def Obligations.AdmissionIsJudgedFirst : Prop :=
  ∀ (c : Instr) (p : PortId) (w : WriterNo) (op : Op) (s : State), operationOf c = some (p, w, op) →
    op ≠ .admitWriter →
    ((s.writer w).binding = none → exec c s = .next (s.withResult .notAdmitted .empty)) ∧
    (∀ q, (s.writer w).binding = some q → q ≠ p → exec c s = .next (s.withResult .wrongPort .empty))

/-- R35: ADMIT binds a VACANT writer to the receiving port, with owned count 0 by the law of R33, and is refused for an
ADMITTED one, on either port. -/
def Obligations.AdmitBindsVacantWriter : Prop :=
  ∀ (p : PortId) (w : WriterNo) (s : State),
    ((s.writer w).binding = none →
      exec (.admitWriter p w) s = .next { s with
        writers := s.writers.set w { binding := some p, ownedCount := (s.writer w).ownedCount }
        result := some { status := .ok, data := .empty } }) ∧
    (s.ownedLaw → (s.writer w).binding = none → (s.writer w).ownedCount = 0) ∧
    ((s.writer w).binding ≠ none → exec (.admitWriter p w) s = .next (s.withResult .alreadyAdmitted .empty))

/-- The check orders of the supervisor operations and of DISMISS (R37, R45, R24, R102, R142). -/
def Obligations.SupervisorOperationsCheckInOrder : Prop :=
  ∀ (p : PortId) (w : WriterNo) (s : State), s.speaks p w →
    (∀ target, AnswersInOrder (.dismiss p w target) s
      (if w ≠ 0 ∧ target.toNat ≠ w.val then .noRight
       else if 7 < target.toNat then .badOperand
       else if ∃ v : WriterNo, v.val = target.toNat ∧ (s.writer v).binding = none then .badState
       else .ok)) ∧
    (∀ target rights ceiling quota, AnswersInOrder (.setProfile p w target rights ceiling quota) s
      (if w ≠ 0 then .noRight
       else if target = 0 ∨ 7 < target.toNat ∨ 63 < rights.toNat ∨ 15 < ceiling.toNat ∨ 256 < quota.toNat then
         .badOperand
       else if ∃ v : WriterNo, v.val = target.toNat ∧ (s.writer v).binding ≠ none then .writerBusy
       else .ok)) ∧
    AnswersInOrder (.clearTable p w) s
      (if w ≠ 0 then .noRight
       else if ∃ v : WriterNo, v ≠ 0 ∧ (s.writer v).binding ≠ none then .writerPresent
       else .ok) ∧
    (∀ line enabled group, AnswersInOrder (.setTrigger p w line enabled group) s
      (if w ≠ 0 then .noRight
       else if 1 < line.toNat ∨ 1 < enabled.toNat ∨ 15 < group.toNat then .badOperand
       else .ok)) ∧
    (∀ enable bitRate timeout retry, AnswersInOrder (.setLink p w enable bitRate timeout retry) s
      (if w ≠ 0 then .noRight
       else if 1 < enable.toNat ∨ ¬ (bitRate = 1 ∨ bitRate = 2 ∨ bitRate = 4) ∨ timeout = 0 ∨ 15 < timeout.toNat ∨
         7 < retry.toNat then .badOperand
       else .ok))

/-- The check orders of the operations that name no record and need a right or none (R93, R98, R138, R139, R141, R46,
R103, R168, R169, R165, R171). A COMMIT refused with SAFE_ACTIVE has a statement of its own. -/
def Obligations.UntaggedOperationsCheckInOrder : Prop :=
  ∀ (p : PortId) (w : WriterNo) (s : State), s.speaks p w →
    (∀ group, s.safe.level = .released → AnswersInOrder (.commit p w group) s
      (if (s.profile w).rights.getLsbD 4 = false then .noRight else if 15 < group.toNat then .badOperand else .ok)) ∧
    (∀ group period, AnswersInOrder (.setCycle p w group period) s
      (if (s.profile w).rights.getLsbD 4 = false then .noRight
       else if group = 0 ∨ 15 < group.toNat then .badOperand else .ok)) ∧
    AnswersInOrder (.linkStart p w) s
      (if (s.profile w).rights.getLsbD 5 = false then .noRight
       else if s.link.state ≠ .down then .linkState else .ok) ∧
    AnswersInOrder (.linkFlush p w) s
      (if (s.profile w).rights.getLsbD 5 = false then .noRight
       else if s.link.state = .off then .linkState else .ok) ∧
    AnswersInOrder (.resync p w) s
      (if (s.profile w).rights.getLsbD 5 = false then .noRight
       else if s.link.state = .off then .linkState else .ok) ∧
    (∀ target, AnswersInOrder (.readProfile p w target) s (if 7 < target.toNat then .badOperand else .ok)) ∧
    (∀ group, AnswersInOrder (.readGroup p w group) s
      (if group = 0 ∨ 15 < group.toNat then .badOperand else .ok)) ∧
    (∀ states owner group, AnswersInOrder (.scan p w states owner group) s
      (if 15 < states.toNat ∨ (7 < owner.toNat ∧ owner ≠ 0xFE ∧ owner ≠ 0xFF) ∨
         (group = 0 ∨ 15 < group.toNat) ∧ group ≠ 0xFF then .badOperand else .ok)) ∧
    AnswersInOrder (.scanNext p w) s
      (if (s.port p).cursor.any (fun c => c.writer == w) then .ok else .noCursor) ∧
    AnswersInOrder (.poll p w) s .ok ∧
    AnswersInOrder (.status p w) s .ok

/-- R17: the check order of CREATE, whose value check stands before the tag lookup. -/
def Obligations.CreateChecksInOrder : Prop :=
  ∀ (p : PortId) (w : WriterNo) (tag : Word16) (group : Byte) (lower upper fallback : Value) (clamp publish : Byte)
    (freshness : Word16) (holdPolicy holdPeriod orphan : Byte) (s : State), s.speaks p w →
    AnswersInOrder
      (.create p w tag group lower upper fallback clamp publish freshness holdPolicy holdPeriod orphan) s
      (if (s.profile w).rights.getLsbD 0 = false then .noRight
       else if tag = 0x0000 ∨ tag = 0xFFFF ∨ group = 0 ∨ 15 < group.toNat ∨ upper.toInt < lower.toInt ∨
         4095 < freshness.toNat ∨ 3 < holdPeriod.toNat ∨ 1 < clamp.toNat ∨ 1 < publish.toNat ∨ 1 < holdPolicy.toNat ∨
         2 < orphan.toNat then .badOperand
       else if fallback.toInt < lower.toInt ∨ upper.toInt < fallback.toInt then .outOfRange
       else if s.tagIndex.lookup tag ≠ none then .duplicateTag
       else if ∀ i, s.slot i ≠ .free then .tableFull
       else .ok)

/-- The check orders of the operations that name a record by its tag: where the tag is out of range or has no entry, and
where the record is another writer's (R9, R20, R22, R59, R68, R74, R75, R78, R84, R86). CLAIM and SET_LIMITS, whose last
refusals carry data, have statements of their own. -/
def Obligations.TagOperationsCheckInOrder : Prop :=
  ∀ (p : PortId) (w : WriterNo) (tag : Word16) (s : State), s.speaks p w → s.indexLaw →
    let record := s.recordOf tag
    let badTag := tag = 0x0000 ∨ tag = 0xFFFF
    let unknown := s.tagIndex.lookup tag = none
    let notOwned := record.all (fun r => r.owner != some w)
    let othersRecord := record.all (fun r => r.owner != none && r.owner != some w)
    let outside := fun (value : Value) (r : Record) =>
      decide (value.toInt < r.lower.toInt ∨ r.upper.toInt < value.toInt)
    AnswersInOrder (.read p w tag) s (if badTag then .badOperand else if unknown then .unknownTag else .ok) ∧
    AnswersInOrder (.release p w tag) s
      (if badTag then .badOperand else if unknown then .unknownTag else if notOwned then .notOwner else .ok) ∧
    AnswersInOrder (.retire p w tag) s
      (if (s.profile w).rights.getLsbD 1 = false then .noRight
       else if badTag then .badOperand else if unknown then .unknownTag else if othersRecord then .notOwner else .ok) ∧
    AnswersInOrder (.touch p w tag) s
      (if (s.profile w).rights.getLsbD 2 = false then .noRight
       else if badTag then .badOperand else if unknown then .unknownTag else if notOwned then .notOwner else .ok) ∧
    (∀ value, AnswersInOrder (.stage p w tag value) s
      (if (s.profile w).rights.getLsbD 2 = false then .noRight
       else if badTag then .badOperand else if unknown then .unknownTag else if notOwned then .notOwner
       else if record.any (fun r => !r.clamp && outside value r) then .outOfRange
       else .ok)) ∧
    AnswersInOrder (.unlatch p w tag) s
      (if (s.profile w).rights.getLsbD 2 = false then .noRight
       else if badTag then .badOperand else if unknown then .unknownTag else if notOwned then .notOwner
       else if record.any (fun r => r.state != .latched) then .badState
       else .ok) ∧
    (∀ value, AnswersInOrder (.setFallback p w tag value) s
      (if (s.profile w).rights.getLsbD 3 = false then .noRight
       else if badTag then .badOperand else if unknown then .unknownTag else if othersRecord then .notOwner
       else if record.any (outside value) then .outOfRange
       else .ok)) ∧
    (∀ freshness holdPolicy holdPeriod orphan,
      AnswersInOrder (.setSupervision p w tag freshness holdPolicy holdPeriod orphan) s
      (if (s.profile w).rights.getLsbD 3 = false then .noRight
       else if badTag ∨ 4095 < freshness.toNat ∨ 3 < holdPeriod.toNat ∨ 1 < holdPolicy.toNat ∨ 2 < orphan.toNat then
         .badOperand
       else if unknown then .unknownTag else if othersRecord then .notOwner else .ok)) ∧
    (∀ group, AnswersInOrder (.setGroup p w tag group) s
      (if (s.profile w).rights.getLsbD 3 = false then .noRight
       else if badTag ∨ group = 0 ∨ 15 < group.toNat then .badOperand
       else if unknown then .unknownTag else if othersRecord then .notOwner else .ok))

/-! ### Writers, profiles and reports (chapter 2) -/

/-- R45: writer 0's SET_PROFILE replaces the whole profile of a VACANT writer 1 to 7, and nothing else. -/
def Obligations.SetProfileReplacesVacantWritersProfile : Prop :=
  ∀ (p : PortId) (target : WriterNo) (rights : Rights) (ceiling quota : Nat) (s : State),
    s.speaks p 0 → target ≠ 0 → (s.writer target).binding = none → ceiling ≤ 15 → quota ≤ 256 →
    exec (.setProfile p 0 (BitVec.ofNat 8 target.val) (rights.setWidth 8) (BitVec.ofNat 8 ceiling)
        (BitVec.ofNat 16 quota)) s =
      .next { s with
        profiles := s.profiles.set target { rights := rights, ceiling := ceiling, quota := quota }
        result := some { status := .ok, data := .empty } }

/-- R37, R38: an accepted DISMISS is the dismissal of its target, with the two counts of its result. -/
def Obligations.DismissReleasesEveryOwnedRecord : Prop :=
  ∀ (p : PortId) (w target : WriterNo) (s : State), s.speaks p w → w = 0 ∨ w = target →
    (s.writer target).binding ≠ none →
    ∃ t, exec (.dismiss p w (BitVec.ofNat 8 target.val)) s = .next t ∧ s.Dismisses t target ∧
      t.result = some
        { status := .ok
          data := .dismissed (allSlots.filter (s.ownedBy target)).length
            (allSlots.filter (s.retiredFrom target)).length }

/-- READ, READ_PROFILE and READ_GROUP report what their rules list and change no state (R22, R23, R46, R103). -/
def Obligations.ReadsReportAndChangeNothing : Prop :=
  ∀ (p : PortId) (w : WriterNo) (s : State), s.speaks p w →
    (∀ tag i r, s.names tag i r →
      exec (.read p w tag) s = .next (s.withResult .ok (.description
        { slot := i, tag := r.tag, state := r.state, owner := r.owner, precedence := r.precedence, live := r.live,
          staged := r.staged, fallback := r.fallback, lower := r.lower, upper := r.upper, clamp := r.clamp,
          publish := r.publish, group := r.group, freshnessCode := r.freshnessCode, holdPolicy := r.holdPolicy,
          holdPeriod := r.holdPeriod, orphan := r.orphan, holdCause := r.holdCause, refreshed := r.refreshed,
          sequence := r.sequence, pending := s.link.queue.any (fun e => e.slot == i) }))) ∧
    (∀ target : WriterNo,
      exec (.readProfile p w (BitVec.ofNat 8 target.val)) s =
        .next (s.withResult .ok (.profile target (s.profile target) (s.writer target)))) ∧
    (∀ g : GroupNo,
      exec (.readGroup p w (BitVec.ofNat 8 (g.val + 1))) s =
        .next (s.withResult .ok (.group g (s.groupEntry g)
          (allSlots.filter (fun i => match s.slot i with | .holding r => r.group == g | _ => false)).length
          (allSlots.filter (fun i =>
            match s.slot i with | .holding r => r.group == g && r.staged.isSome | _ => false)).length
          s.trg0 s.trg1)))

/-! ### Records (chapter 1) -/

/-- R18, R6, R7, R8: an accepted CREATE writes a DORMANT, unowned record with the operands as given in the lowest FREE
slot, enters its tag in the index, and changes nothing else. -/
def Obligations.CreateFillsLowestFreeSlot : Prop :=
  ∀ (p : PortId) (w : WriterNo) (tag : Word16) (g : GroupNo) (lower upper fallback : Value) (clamp publish : Bool)
    (freshness : Nat) (policy : HoldPolicy) (period : Fin 4) (orphan : OrphanPolicy) (i : SlotNo) (s : State),
    s.speaks p w → (s.profile w).rights.getLsbD 0 = true → tag ≠ 0x0000 → tag ≠ 0xFFFF →
    lower.toInt ≤ fallback.toInt → fallback.toInt ≤ upper.toInt → freshness ≤ 4095 →
    s.tagIndex.lookup tag = none → s.slot i = .free → (∀ j, j < i → s.slot j ≠ .free) →
    ∃ t,
      exec (.create p w tag (BitVec.ofNat 8 (g.val + 1)) lower upper fallback (BitVec.ofNat 8 clamp.toNat)
        (BitVec.ofNat 8 publish.toNat) (BitVec.ofNat 16 freshness) policy.code
        (BitVec.ofNat 8 period.val) orphan.code) s = .next t ∧
      t.slot i = .holding
        { tag := tag, state := .dormant, owner := none, precedence := 0, live := none, staged := none,
          fallback := fallback, lower := lower, upper := upper, clamp := clamp, publish := publish, group := g,
          freshnessCode := freshness, holdPolicy := policy, holdPeriod := period, orphan := orphan, holdCause := none,
          refreshed := none, sequence := 0, countdown := .stopped, holdTimer := .stopped } ∧
      (∀ j, j ≠ i → t.slot j = s.slot j) ∧
      (∀ u, t.tagIndex.lookup u = if u = tag then some i else s.tagIndex.lookup u) ∧
      t = { s with
        table := t.table, tagIndex := t.tagIndex, freeCount := s.freeCount - 1,
        result := some { status := .ok, data := .slot i } }

/-- R13, R14, R21: an accepted RETIRE ends the record's life, and nothing else changes. -/
def Obligations.RetireEndsTheRecord : Prop :=
  ∀ (p : PortId) (w : WriterNo) (tag : Word16) (i : SlotNo) (r : Record) (s : State),
    s.speaks p w → (s.profile w).rights.getLsbD 1 = true → s.names tag i r → r.owner = none ∨ r.owner = some w →
    ∃ t, exec (.retire p w tag) s = .next t ∧ s.OneRecordRetired t i r ∧
      t = { s with
        table := t.table, tagIndex := t.tagIndex, freeCount := t.freeCount, vacatingCount := t.vacatingCount,
        writers := t.writers, link := { s.link with queue := t.link.queue },
        result := some
          { status := .ok,
            data := .slotState i (if r.publish ∧ s.link.state ≠ .off then .vacating else .free) } }

/-- R24, R25: an accepted CLEAR_TABLE retires every record, hands their RETIRE entries on in ascending slot order, leaves
VACATING slots alone, closes both cursors, and changes nothing else. The FREE and VACATING counts then add up to 256 and
writer 0 owns no record, by the laws of R7 and R33. -/
def Obligations.ClearTableRetiresEveryRecord : Prop :=
  ∀ (p : PortId) (s : State), s.speaks p 0 → (∀ v, v ≠ 0 → (s.writer v).binding = none) → s.indexLaw →
    let retired := allSlots.filter (fun i => (s.slot i).record?.isSome)
    let vacated := allSlots.filter (fun i =>
      match s.slot i with | .holding r => r.publish && s.link.state != .off | _ => false)
    ∃ t, exec (.clearTable p 0) s = .next t ∧
      (∀ i, t.slot i = match s.slot i with | .holding r => s.retiredSlot r | x => x) ∧
      t.tagIndex = [] ∧
      t.link.queue =
        (allSlots.flatMap (fun i =>
          match s.slot i with | .holding r => s.retireEntry i r | _ => [])).foldl handOver s.link.queue ∧
      t.freeCount + vacated.length = s.freeCount + retired.length ∧
      t.vacatingCount = s.vacatingCount + vacated.length ∧
      (∀ w, t.writer w = { s.writer w with
        ownedCount := (s.writer w).ownedCount - (allSlots.filter (s.ownedBy w)).length }) ∧
      (s.countLaw → t.freeCount + t.vacatingCount = 256) ∧ (s.ownedLaw → (t.writer 0).ownedCount = 0) ∧
      t = { s with
        table := t.table, tagIndex := [], freeCount := t.freeCount, vacatingCount := t.vacatingCount,
        writers := t.writers, link := { s.link with queue := t.link.queue },
        portA := { s.portA with cursor := none }, portB := { s.portB with cursor := none },
        result := some { status := .ok, data := .cleared retired.length vacated.length } }

/-! ### Claims (chapter 3) -/

/-- The check order of CLAIM, with the owner and precedence that CLAIM_HELD and OUTRANKED carry (R50). -/
def Obligations.ClaimChecksInOrder : Prop :=
  ∀ (p : PortId) (w : WriterNo) (tag : Word16) (precedence : Byte) (s : State), s.speaks p w → s.indexLaw →
    let record := s.recordOf tag
    let status : Status :=
      if (s.profile w).ceiling = 0 then .noRight
      else if precedence = 0 ∨ 15 < precedence.toNat ∨ tag = 0x0000 ∨ tag = 0xFFFF then .badOperand
      else if (s.profile w).ceiling < precedence.toNat then .aboveCeiling
      else if s.tagIndex.lookup tag = none then .unknownTag
      else if record.any (fun r => r.owner == some w) then .ok
      else if record.any (fun r => r.owner.isSome && precedence.toNat == r.precedence) then .claimHeld
      else if record.any (fun r => r.owner.isSome && decide (precedence.toNat < r.precedence)) then .outranked
      else if (s.writer w).ownedCount = (s.profile w).quota then .quotaFull
      else .ok
    ∃ t, exec (.claim p w tag precedence) s = .next t ∧ t.result.map OpResult.status = some status ∧
      (status = .claimHeld ∨ status = .outranked → ∀ r v, record = some r → r.owner = some v →
        t = s.withResult status (.holder v r.precedence)) ∧
      (status ≠ .ok → status ≠ .claimHeld → status ≠ .outranked → t = s.withResult status .empty)

/-- R52, R53: the claim of an unowned record makes the claimant its owner, raises the claimant's count and starts the
countdown of a LIVE record; a re-claim changes the precedence alone. -/
def Obligations.ClaimTakesOrKeepsOwnership : Prop :=
  ∀ (p : PortId) (w : WriterNo) (tag : Word16) (precedence : Byte) (i : SlotNo) (r : Record) (s : State),
    s.speaks p w → s.names tag i r → 1 ≤ precedence.toNat → precedence.toNat ≤ 15 →
    precedence.toNat ≤ (s.profile w).ceiling →
    (r.owner = none → (s.writer w).ownedCount ≠ (s.profile w).quota →
      ∃ t, exec (.claim p w tag precedence) s = .next t ∧
        t.slot i = .holding { r with
          owner := some w, precedence := precedence.toNat,
          countdown := if r.state = .live then countdownFor r.freshnessCode else r.countdown } ∧
        (∀ j, j ≠ i → t.slot j = s.slot j) ∧
        t = { s with
          table := t.table,
          writers := s.writers.set w { s.writer w with ownedCount := (s.writer w).ownedCount + 1 },
          result := some { status := .ok, data := .claimed i .new none 0 } }) ∧
    (r.owner = some w →
      ∃ t, exec (.claim p w tag precedence) s = .next t ∧
        t.slot i = .holding { r with precedence := precedence.toNat } ∧ (∀ j, j ≠ i → t.slot j = s.slot j) ∧
        t = { s with
          table := t.table,
          result := some { status := .ok, data := .claimed i .reclaim (some w) r.precedence } })

/-- R55, R56, R57: a takeover is refused with QUOTA_FULL where the claimant's count equals its quota. Otherwise it moves
the record and the counts, discards the staged entry, clears the refreshed flag of a hold with cause EXPIRY, restarts the
countdown of a LIVE record, and tells the old owner. -/
def Obligations.TakeoverMovesTheRecord : Prop :=
  ∀ (p : PortId) (w old : WriterNo) (tag : Word16) (precedence : Byte) (i : SlotNo) (r : Record) (s : State),
    s.speaks p w → s.names tag i r → r.owner = some old → old ≠ w → precedence.toNat ≤ 15 →
    precedence.toNat ≤ (s.profile w).ceiling → r.precedence < precedence.toNat →
    ((s.writer w).ownedCount = (s.profile w).quota →
      exec (.claim p w tag precedence) s = .next (s.withResult .quotaFull .empty)) ∧
    ((s.writer w).ownedCount ≠ (s.profile w).quota →
      ∃ t, exec (.claim p w tag precedence) s = .next t ∧
        t.slot i = .holding { r with
          owner := some w, precedence := precedence.toNat, staged := none,
          refreshed := if r.state = .held ∧ r.holdCause = some .expiry then some false else r.refreshed,
          countdown := if r.state = .live then countdownFor r.freshnessCode else r.countdown } ∧
        (∀ j, j ≠ i → t.slot j = s.slot j) ∧
        t.writer old = { s.writer old with ownedCount := (s.writer old).ownedCount - 1 } ∧
        t.writer w = { s.writer w with ownedCount := (s.writer w).ownedCount + 1 } ∧
        (∀ v, v ≠ old → v ≠ w → t.writer v = s.writer v) ∧
        s.Notifies t old (.claimLost r.tag w precedence.toNat) ∧
        t = { s with
          table := t.table, writers := t.writers, portA := t.portA, portB := t.portB,
          result := some { status := .ok, data := .claimed i .takeover (some old) r.precedence } })

/-- R39, R40, R41, R60: an accepted RELEASE takes the record through the loss-of-owner path of its orphan policy. -/
def Obligations.ReleaseFollowsOrphanPolicy : Prop :=
  ∀ (p : PortId) (w : WriterNo) (tag : Word16) (i : SlotNo) (r : Record) (s : State),
    s.speaks p w → s.names tag i r → r.owner = some w →
    ∃ t, exec (.release p w tag) s = .next t ∧
      (r.orphan = .retire → s.OneRecordRetired t i r) ∧
      (r.orphan ≠ .retire →
        s.OneRecordBecomes t i r (r.lossRow s.safeActive) ∧
        t.writers = s.writers.set w { s.writer w with ownedCount := (s.writer w).ownedCount - 1 } ∧
        t.tagIndex = s.tagIndex ∧ t.freeCount = s.freeCount ∧ t.vacatingCount = s.vacatingCount) ∧
      t = { s with
        table := t.table, tagIndex := t.tagIndex, freeCount := t.freeCount, vacatingCount := t.vacatingCount,
        writers := t.writers, link := { s.link with queue := t.link.queue },
        result := some { status := .ok, data := .slotState i (t.slot i).state } }

/-! ### Staging and shape (chapter 4) -/

/-- R69, R70, R71: an accepted STAGE places the operand, or the limit it is clamped to, as the staged entry, and
refreshes the record; nothing else changes. -/
def Obligations.StagePlacesValueAndRefreshes : Prop :=
  ∀ (p : PortId) (w : WriterNo) (tag : Word16) (value : Value) (i : SlotNo) (r : Record) (s : State),
    s.speaks p w → (s.profile w).rights.getLsbD 2 = true → s.names tag i r → r.owner = some w →
    let below := value.toInt < r.lower.toInt
    let above := r.upper.toInt < value.toInt
    r.clamp = true ∨ ¬ below ∧ ¬ above →
    let placed := if below then r.lower else if above then r.upper else value
    let clamped := decide (below ∨ above)
    ∃ t, exec (.stage p w tag value) s = .next t ∧
      t.slot i = .holding { r with
        staged := some { value := placed, clamped := clamped },
        countdown :=
          if r.state = .live ∧ r.freshnessCode ≠ 0 then .running (ms (10 * r.freshnessCode)) else r.countdown,
        refreshed := if r.state = .held ∧ r.holdCause = some .expiry then some true else r.refreshed } ∧
      (∀ j, j ≠ i → t.slot j = s.slot j) ∧
      t = { s with
        table := t.table, result := some { status := .ok, data := .staged i placed clamped } }

/-- R67, R74: an accepted TOUCH has the refresh effect of the record's state, reports it, and changes nothing else. -/
def Obligations.TouchRefreshesAndReportsIt : Prop :=
  ∀ (p : PortId) (w : WriterNo) (tag : Word16) (i : SlotNo) (r : Record) (s : State),
    s.speaks p w → (s.profile w).rights.getLsbD 2 = true → s.names tag i r → r.owner = some w →
    ∃ t effect, exec (.touch p w tag) s = .next t ∧
      (r.state = .live ∧ r.freshnessCode ≠ 0 →
        effect = .restarted ∧ t.slot i = .holding { r with countdown := .running (ms (10 * r.freshnessCode)) }) ∧
      (r.state = .held ∧ r.holdCause = some .expiry →
        effect = .refreshed ∧ t.slot i = .holding { r with refreshed := some true }) ∧
      (¬ (r.state = .live ∧ r.freshnessCode ≠ 0) → ¬ (r.state = .held ∧ r.holdCause = some .expiry) →
        effect = .none ∧ t.slot i = .holding r) ∧
      (∀ j, j ≠ i → t.slot j = s.slot j) ∧
      t = { s with table := t.table, result := some { status := .ok, data := .touched i effect } }

/-- R76: an accepted UNLATCH makes the record LIVE with its countdown started while SAFE is released, and HELD with cause
SAFE while it is active. -/
def Obligations.UnlatchEndsTheLatch : Prop :=
  ∀ (p : PortId) (w : WriterNo) (tag : Word16) (i : SlotNo) (r : Record) (s : State),
    s.speaks p w → (s.profile w).rights.getLsbD 2 = true → s.names tag i r → r.owner = some w → r.state = .latched →
    ∃ t, exec (.unlatch p w tag) s = .next t ∧
      s.OneRecordBecomes t i r
        (match s.safe.level with
          | .released => { r with state := .live, countdown := countdownFor r.freshnessCode }
          | .active => { r with state := .held, holdCause := some .safe }) ∧
      t = { s with
        table := t.table, link := { s.link with queue := t.link.queue },
        result := some
          { status := .ok,
            data := .slotState i (match s.safe.level with | .released => .live | .active => .held) } }

/-- R80, R81: SET_LIMITS is refused with LIMIT_CONFLICT and three flags where a present value lies outside the new limits,
and otherwise replaces the limits alone. -/
def Obligations.SetLimitsKeepsValuesInside : Prop :=
  ∀ (p : PortId) (w : WriterNo) (tag : Word16) (lower upper : Value) (s : State), s.speaks p w → s.indexLaw →
    let outside := fun v : Value => decide (v.toInt < lower.toInt ∨ upper.toInt < v.toInt)
    ((s.profile w).rights.getLsbD 3 = false →
      exec (.setLimits p w tag lower upper) s = .next (s.withResult .noRight .empty)) ∧
    ((s.profile w).rights.getLsbD 3 = true →
      (tag = 0x0000 ∨ tag = 0xFFFF ∨ upper.toInt < lower.toInt →
        exec (.setLimits p w tag lower upper) s = .next (s.withResult .badOperand .empty)) ∧
      (tag ≠ 0x0000 → tag ≠ 0xFFFF → lower.toInt ≤ upper.toInt →
        (s.tagIndex.lookup tag = none →
          exec (.setLimits p w tag lower upper) s = .next (s.withResult .unknownTag .empty)) ∧
        (∀ i r, s.names tag i r →
          (r.owner ≠ none → r.owner ≠ some w →
            exec (.setLimits p w tag lower upper) s = .next (s.withResult .notOwner .empty)) ∧
          (r.owner = none ∨ r.owner = some w →
            let f := outside r.fallback
            let l := r.live.any outside
            let g := r.staged.any (fun e => outside e.value)
            (f = true ∨ l = true ∨ g = true →
              exec (.setLimits p w tag lower upper) s = .next (s.withResult .limitConflict (.outside f l g))) ∧
            (f = false → l = false → g = false →
              ∃ t, exec (.setLimits p w tag lower upper) s = .next t ∧
                t.slot i = .holding { r with lower := lower, upper := upper } ∧
                (∀ j, j ≠ i → t.slot j = s.slot j) ∧
                t = { s with table := t.table, result := some { status := .ok, data := .slot i } })))))

/-- R82: an accepted SET_FALLBACK replaces the fallback; in HELD and LATCHED the live value follows it, with a sequence
change and an UPDATE where it differs. -/
def Obligations.SetFallbackMovesHeldValue : Prop :=
  ∀ (p : PortId) (w : WriterNo) (tag : Word16) (value : Value) (i : SlotNo) (r : Record) (s : State),
    s.speaks p w → (s.profile w).rights.getLsbD 3 = true → s.names tag i r → r.owner = none ∨ r.owner = some w →
    r.lower.toInt ≤ value.toInt → value.toInt ≤ r.upper.toInt →
    let follows := r.state = .held ∨ r.state = .latched
    ∃ t, exec (.setFallback p w tag value) s = .next t ∧
      s.OneRecordBecomes t i r { r with fallback := value, live := if follows then some value else r.live } ∧
      t = { s with
        table := t.table, link := { s.link with queue := t.link.queue },
        result := some { status := .ok, data := .fallbackSet i (decide (follows ∧ r.live ≠ some value)) } }

/-- R84, R86: an accepted SET_SUPERVISION replaces the four settings and restarts or stops the countdown of an owned LIVE
record; an accepted SET_GROUP moves the record. Nothing else changes. -/
def Obligations.SettingsAreReplaced : Prop :=
  ∀ (p : PortId) (w : WriterNo) (tag : Word16) (i : SlotNo) (r : Record) (s : State),
    s.speaks p w → (s.profile w).rights.getLsbD 3 = true → s.names tag i r → r.owner = none ∨ r.owner = some w →
    (∀ (freshness : Nat) (policy : HoldPolicy) (period : Fin 4) (orphan : OrphanPolicy), freshness ≤ 4095 →
      ∃ t,
        exec (.setSupervision p w tag (BitVec.ofNat 16 freshness) policy.code
          (BitVec.ofNat 8 period.val) orphan.code) s = .next t ∧
        t.slot i = .holding { r with
          freshnessCode := freshness, holdPolicy := policy, holdPeriod := period, orphan := orphan,
          countdown := if r.state = .live ∧ r.owner ≠ none then countdownFor freshness else r.countdown } ∧
        (∀ j, j ≠ i → t.slot j = s.slot j) ∧
        t = { s with table := t.table, result := some { status := .ok, data := .slot i } }) ∧
    (∀ g : GroupNo,
      ∃ t, exec (.setGroup p w tag (BitVec.ofNat 8 (g.val + 1))) s = .next t ∧
        t.slot i = .holding { r with group := g } ∧ (∀ j, j ≠ i → t.slot j = s.slot j) ∧
        t = { s with table := t.table, result := some { status := .ok, data := .regrouped i r.group } })

/-! ### Commits (chapter 5) -/

/-- R89, R90, R93, R94: while SAFE is released an accepted COMMIT commits its group, or all groups for 0, and reports how
many records it changed and the commit count, of group 1 for 0. While SAFE is active a COMMIT is refused in the order of
its checks, and only a refusal with SAFE_ACTIVE sets the commit-refused flag. -/
def Obligations.CommitMakesStagedValuesLive : Prop :=
  ∀ (p : PortId) (w : WriterNo) (s : State), s.speaks p w →
    (∀ (target : CommitTarget) (g : GroupNo), (s.profile w).rights.getLsbD 4 = true → s.safe.level = .released →
      target.val = g.val + 1 ∨ target.val = 0 ∧ g.val = 0 →
      ∃ t, exec (.commit p w (BitVec.ofNat 8 target.val)) s = .next t ∧ s.Commits t target ∧
        t.result = some { status := .ok, data := .committed (s.changedBy target) (t.groupEntry g).count }) ∧
    (∀ group : Byte, s.safe.level = .active →
      exec (.commit p w group) s = .next
        (if (s.profile w).rights.getLsbD 4 = false then s.withResult .noRight .empty
         else if 15 < group.toNat then s.withResult .badOperand .empty
         else { s with
           safe := { s.safe with commitRefused := true }
           result := some { status := .safeActive, data := .empty } }))

/-- R96, R100, R101: the expiry of a running cycle timer commits its group; a rising edge on an enabled line commits the
entry's group while SAFE is released and only sets the commit-refused flag while it is active; an edge on a line not
enabled is passed over. A stopped timer does not expire (notes/assumptions/4.md). -/
def Obligations.TimersAndLinesCommit : Prop :=
  ∀ s : State,
    (∀ g : GroupNo, (s.groupEntry g).timer ≠ .stopped →
      ∃ t, exec (.cycleTimerExpiry g) s = .next t ∧ s.Commits t g.succ ∧ t.result = s.result) ∧
    (∀ g : GroupNo, (s.groupEntry g).timer = .stopped → exec (.cycleTimerExpiry g) s = .next s) ∧
    (∀ l, (s.trigger l).enabled = true → s.safe.level = .released →
      ∃ t, exec (.risingEdge l) s = .next t ∧ s.Commits t (s.trigger l).group ∧ t.result = s.result) ∧
    (∀ l, (s.trigger l).enabled = true → s.safe.level = .active →
      exec (.risingEdge l) s = .next { s with safe := { s.safe with commitRefused := true } }) ∧
    ∀ l, (s.trigger l).enabled = false → exec (.risingEdge l) s = .next s

/-- R96, R98, R102: an accepted SET_CYCLE sets the period and starts, restarts or stops the timer; an accepted
SET_TRIGGER replaces the line's entry. Nothing else changes. -/
def Obligations.CyclesAndTriggersAreSet : Prop :=
  ∀ (p : PortId) (w : WriterNo) (s : State), s.speaks p w →
    (∀ (g : GroupNo) (period : Byte), (s.profile w).rights.getLsbD 4 = true →
      exec (.setCycle p w (BitVec.ofNat 8 (g.val + 1)) period) s = .next { s with
        groups := s.groups.set g
          { period := period, count := (s.groupEntry g).count,
            timer :=
              if period = 0 ∨ s.safe.level = .active then .stopped else .running (ms period.toNat) }
        result := some { status := .ok, data := .previousPeriod (s.groupEntry g).period } }) ∧
    (∀ (enabled : Bool) (target : CommitTarget), w = 0 →
      exec (.setTrigger p w 0 (BitVec.ofNat 8 enabled.toNat) (BitVec.ofNat 8 target.val)) s = .next { s with
        trg0 := { enabled := enabled, group := target }
        result := some { status := .ok, data := .previousTrigger s.trg0 } } ∧
      exec (.setTrigger p w 1 (BitVec.ofNat 8 enabled.toNat) (BitVec.ofNat 8 target.val)) s = .next { s with
        trg1 := { enabled := enabled, group := target }
        result := some { status := .ok, data := .previousTrigger s.trg1 } })

/-! ### Supervision and SAFE (chapter 6) -/

/-- R115: a change of SAFE_N to the level opposite to the filtered level starts the stability interval with 1 ms, a
change back stops it, and neither changes anything else. -/
def Obligations.SafeFilterMeasuresTheLine : Prop :=
  ∀ (high : Bool) (s : State),
    (high ≠ s.safe.lineHigh →
      exec (.safeNChange high) s = .next { s with
        safe := { s.safe with
          lineHigh := high
          stability :=
            match s.safe.level, high with
            | .released, false => .running (ms 1)
            | .active, true => .running (ms 1)
            | .released, true => .stopped
            | .active, false => .stopped } }) ∧
    (high = s.safe.lineHigh → exec (.safeNChange high) s = .next s)

/-- R97, R117, R119, R121, R122: SAFE entry, the expiry of the stability interval with the line low, holds every LIVE
record at its fallback with cause SAFE, stops the cycle timers, sets seen-active and tells both ports. That a command which
names it while the interval is STOPPED or the line high changes nothing is the model's (notes/assumptions/4.md). -/
def Obligations.SafeEntryHoldsEveryLiveRecord : Prop :=
  ∀ s : State,
    (s.safe.stability ≠ .stopped → s.safe.lineHigh = false →
      ∃ t, exec .safeEntry s = .next t ∧
        s.EveryRecordBecomes t (fun r =>
          if r.state = .live then
            { r with state := .held, holdCause := some .safe, live := some r.fallback, countdown := .stopped }
          else r) ∧
        (∀ g, t.groupEntry g = { s.groupEntry g with timer := .stopped }) ∧
        s.NotifiesBoth t (.safeChanged .active) ∧
        t = { s with
          table := t.table, groups := t.groups, link := { s.link with queue := t.link.queue },
          safe := { s.safe with level := .active, stability := .stopped, seenActive := true },
          portA := t.portA, portB := t.portB }) ∧
    (s.safe.stability = .stopped ∨ s.safe.lineHigh = true → exec .safeEntry s = .next s)

/-- R97, R120, R121: SAFE release, the expiry of the stability interval with the line high, returns every record held
for SAFE to LIVE at its fallback, starts the cycle timers and tells both ports. That a command which names it while the
interval is STOPPED or the line low changes nothing is the model's (notes/assumptions/4.md). -/
def Obligations.SafeReleaseReturnsHeldRecords : Prop :=
  ∀ s : State,
    (s.safe.stability ≠ .stopped → s.safe.lineHigh = true →
      ∃ t, exec .safeRelease s = .next t ∧
        s.EveryRecordBecomes t (fun r =>
          if r.state = .held ∧ r.holdCause = some .safe then
            { r with
              state := .live, holdCause := none,
              countdown := if r.owner.isSome then countdownFor r.freshnessCode else r.countdown }
          else r) ∧
        (∀ g, t.groupEntry g =
          if (s.groupEntry g).period = 0 then s.groupEntry g
          else { s.groupEntry g with timer := .running (ms (s.groupEntry g).period.toNat) }) ∧
        s.NotifiesBoth t (.safeChanged .released) ∧
        t = { s with
          table := t.table, groups := t.groups, link := { s.link with queue := t.link.queue },
          safe := { s.safe with level := .released, stability := .stopped },
          portA := t.portA, portB := t.portB }) ∧
    (s.safe.stability = .stopped ∨ s.safe.lineHigh = false → exec .safeRelease s = .next s)

/-- R108, R112: a freshness expiry holds or latches the record by its hold policy, at its fallback, with its staged entry
discarded, and tells the owner. That a command which names a slot whose countdown does not run changes nothing is the
model's (notes/assumptions/4.md). -/
def Obligations.FreshnessExpiryHoldsOrLatches : Prop :=
  ∀ (i : SlotNo) (s : State),
    (∀ (r : Record) (w : WriterNo), s.slot i = .holding r → r.state = .live → r.countdown ≠ .stopped →
      r.owner = some w →
      ∃ t, exec (.freshnessExpiry i) s = .next t ∧
        (r.holdPolicy = .resume →
          s.OneRecordBecomes t i r { r with
            state := .held, holdCause := some .expiry, refreshed := some false, live := some r.fallback,
            staged := none, countdown := .stopped,
            holdTimer := .running (holdPeriodTime r.holdPeriod) (holdPeriodTime r.holdPeriod) } ∧
          s.Notifies t w (.holdEntered r.tag)) ∧
        (r.holdPolicy = .latch →
          s.OneRecordBecomes t i r { r with
            state := .latched, live := some r.fallback, staged := none, countdown := .stopped } ∧
          s.Notifies t w (.latched r.tag)) ∧
        t = { s with
          table := t.table, link := { s.link with queue := t.link.queue }, portA := t.portA, portB := t.portB }) ∧
    (¬ (∃ r, s.slot i = .holding r ∧ r.state = .live ∧ r.countdown ≠ .stopped) →
      exec (.freshnessExpiry i) s = .next s)

/-- R110, R112: the four rows of a hold-timer expiry. That a command which names a slot whose hold timer does not run
changes nothing is the model's (notes/assumptions/4.md). -/
def Obligations.HoldTimerExpiryFollowsItsTable : Prop :=
  ∀ (i : SlotNo) (s : State),
    (∀ (r : Record) (w : WriterNo), s.slot i = .holding r → r.state = .held → r.holdCause = some .expiry →
      r.holdTimer ≠ .stopped → r.owner = some w →
      ∃ t, exec (.holdTimerExpiry i) s = .next t ∧
        (r.refreshed = some true → s.safe.level = .released →
          s.OneRecordBecomes t i r { r with
            state := .live, holdCause := none, refreshed := none, holdTimer := .stopped,
            countdown := countdownFor r.freshnessCode } ∧
          s.Notifies t w (.resumed r.tag)) ∧
        (r.refreshed = some true → s.safe.level = .active →
          s.OneRecordBecomes t i r { r with
            holdCause := some .safe, refreshed := none, holdTimer := .stopped } ∧
          t.portA = s.portA ∧ t.portB = s.portB) ∧
        (r.refreshed ≠ some true → r.holdPolicy = .resume →
          s.OneRecordBecomes t i r { r with
            holdTimer := .running (holdPeriodTime r.holdPeriod) (holdPeriodTime r.holdPeriod) } ∧
          t.portA = s.portA ∧ t.portB = s.portB) ∧
        (r.refreshed ≠ some true → r.holdPolicy = .latch →
          s.OneRecordBecomes t i r { r with
            state := .latched, holdCause := none, refreshed := none, holdTimer := .stopped } ∧
          s.Notifies t w (.latched r.tag)) ∧
        t = { s with
          table := t.table, link := { s.link with queue := t.link.queue }, portA := t.portA, portB := t.portB }) ∧
    (¬ (∃ r, s.slot i = .holding r ∧ r.state = .held ∧ r.holdCause = some .expiry ∧ r.holdTimer ≠ .stopped) →
      exec (.holdTimerExpiry i) s = .next s)

/-! ### The link (chapter 7) -/

/-- R128, R129: a send event on an IDLE link latches the frame of the head entry from what its slot holds, under the next
number, and begins its transmission; elsewhere there is none. `choices` is the model's own count
(notes/assumptions/13.md). -/
def Obligations.SendEventLatchesHeadEntry : Prop :=
  ∀ s : State,
    (∀ (e : Entry) (rest : List Entry) (frame : PubFrame), s.link.state = .idle → s.link.queue = e :: rest →
      ((∃ r v, e.kind = .update ∧ s.slot e.slot = .holding r ∧ r.live = some v ∧
          frame =
            { number := s.link.nextNumber, kind := .update, tag := r.tag, sequence := r.sequence,
              state := (match r.state with
                | .dormant => .dormant | .live => .live | .held => .held | .latched => .latched),
              value := v }) ∨
        (∃ tag sequence, e.kind = .retire ∧ s.slot e.slot = .vacating tag sequence ∧
          frame =
            { number := s.link.nextNumber, kind := .retire, tag := tag, sequence := sequence, state := .vacating,
              value := 0 })) →
      exec .sendEvent s = .next { s with
        choices := s.choices + 1
        link := { s.link with
          state := .sending, queue := rest, inFlight := some { frame := frame, entry := e, retries := 0 },
          nextNumber := s.link.nextNumber + 1, noted := false,
          transmission := .running (140 * bitTime s.link.settings.bitRate) s.link.settings.bitRate } }) ∧
    (s.link.state ≠ .idle ∨ s.link.queue = [] → exec .sendEvent s = .next s)

/-- R131, R133: the end of a transmission starts the acknowledgement timer, or completes the frame where an
acknowledgement was noted; the expiry of the acknowledgement timer, taken in AWAITING_ACK alone, is a failed
transmission. -/
def Obligations.LinkTimersMoveTheFrame : Prop :=
  ∀ s : State,
    (∀ f, s.link.state = .sending → s.link.inFlight = some f → s.link.noted = false →
      exec .endOfTransmission s = .next { s with link := { s.link with
        state := .awaitingAck, ackTimer := .running (1000 * s.link.settings.timeoutCode),
        transmission := .stopped } }) ∧
    (∀ f, s.link.state = .sending → s.link.inFlight = some f → s.link.noted = true →
      ∃ t, exec .endOfTransmission s = .next t ∧ s.FrameCompletes t f) ∧
    (s.link.state ≠ .sending → exec .endOfTransmission s = .next s) ∧
    (∀ f, s.link.state = .awaitingAck → s.link.inFlight = some f →
      ∃ t, exec .acknowledgementTimerExpiry s = .next t ∧ s.TransmissionFails t f) ∧
    (s.link.state ≠ .awaitingAck → exec .acknowledgementTimerExpiry s = .next s)

/-- R132, R133, R134: every row of the judgement of an acknowledgement. Both bytes having come in time, no byte stays open
(notes/assumptions/12.md). -/
def Obligations.AcknowledgementsAreJudged : Prop :=
  ∀ s : State,
    let u := { s with link := { s.link with openByte := none } }
    (∀ f, s.link.inFlight = some f → s.link.state = .awaitingAck →
      (∃ t, exec (.acknowledgement 0x06 f.frame.number) s = .next t ∧ u.FrameCompletes t f) ∧
      (∃ t, exec (.acknowledgement 0x15 f.frame.number) s = .next t ∧ u.TransmissionFails t f)) ∧
    (∀ f, s.link.inFlight = some f → s.link.state = .sending →
      (f.retries = 0 → exec (.acknowledgement 0x06 f.frame.number) s = .next u) ∧
      (f.retries ≠ 0 →
        exec (.acknowledgement 0x06 f.frame.number) s = .next { u with link := { u.link with noted := true } }) ∧
      exec (.acknowledgement 0x15 f.frame.number) s = .next u) ∧
    (∀ f kind number, s.link.inFlight = some f → s.link.state = .sending ∨ s.link.state = .awaitingAck →
      f.frame.number ≠ number ∨ kind ≠ 0x06 ∧ kind ≠ 0x15 → exec (.acknowledgement kind number) s = .next u) ∧
    (s.link.state = .off → ∀ kind number, exec (.acknowledgement kind number) s = .next s) ∧
    (s.link.state = .idle ∨ s.link.state = .down → ∀ kind number, exec (.acknowledgement kind number) s = .next u)

/-- R176: the start bit of a byte on RXP fixes the byte's bit rate, the link's as it stands, whatever SET_LINK does before
the byte ends. A byte received is dropped while the link is OFF, drops an open byte with itself when its stop bit is low,
opens an acknowledgement when none is open or when its start bit came more than 20 bit times after the open byte's stop
bit, and else completes the open one, which is judged. Its ten bits are a low start bit, the data bits from the least
significant, and the stop bit (R175). That a byte whose start bit was not noted began ten bit times before its end, at the
link's rate, is the model's choice, as is a second start bit, which changes nothing (notes/assumptions/12.md, 4.md). -/
def Obligations.ReceivedBytesPairUp : Prop :=
  ∀ (byte : Byte) (stopHigh : Bool) (s : State),
    (s.rxp = none →
      exec (.rxpByte byte stopHigh .startBit) s =
        .next { s with rxp := some { rate := s.link.settings.bitRate, age := 0 } }) ∧
    (s.rxp ≠ none → exec (.rxpByte byte stopHigh .startBit) s = .next s) ∧
    (∀ (rate : BitRate) (since : Nat),
      s.rxp = some { rate := rate, age := since } ∨
        s.rxp = none ∧ rate = s.link.settings.bitRate ∧ since = 10 * bitTime rate →
      let ended := { s with rxp := none }
      let opened := { ended with link := { s.link with openByte := some { kind := byte, age := 0 } } }
      (s.link.state = .off → exec (.rxpByte byte stopHigh .stopBit) s = .next ended) ∧
      (s.link.state ≠ .off → stopHigh = false →
        exec (.rxpByte byte stopHigh .stopBit) s = .next { ended with link := { s.link with openByte := none } }) ∧
      (s.link.state ≠ .off → stopHigh = true → s.link.openByte = none →
        exec (.rxpByte byte stopHigh .stopBit) s = .next opened) ∧
      ∀ o, s.link.state ≠ .off → stopHigh = true → s.link.openByte = some o →
        (20 * bitTime rate + since < o.age → exec (.rxpByte byte stopHigh .stopBit) s = .next opened) ∧
        (o.age ≤ 20 * bitTime rate + since →
          exec (.rxpByte byte stopHigh .stopBit) s = exec (.acknowledgement o.kind byte) ended)) ∧
    rxpCommand?
        [false, byte.getLsbD 0, byte.getLsbD 1, byte.getLsbD 2, byte.getLsbD 3, byte.getLsbD 4, byte.getLsbD 5,
          byte.getLsbD 6, byte.getLsbD 7, stopHigh] = some (.rxpByte byte stopHigh .stopBit)

/-- R138, R139, R141: an accepted LINK_START makes the link IDLE; LINK_FLUSH empties the queue and frees the VACATING slots
whose RETIRE entry it discards; RESYNC adds an UPDATE entry for every published LIVE, HELD or LATCHED record without
one, in ascending slot order. -/
def Obligations.LinkStartFlushAndResync : Prop :=
  ∀ (p : PortId) (w : WriterNo) (s : State), s.speaks p w → (s.profile w).rights.getLsbD 5 = true →
    (s.link.state = .down →
      exec (.linkStart p w) s = .next { s with
        link := { s.link with state := .idle }
        result := some { status := .ok, data := .entries s.link.queue.length } }) ∧
    (s.link.state ≠ .off →
      let freed := allSlots.filter (fun i =>
        (s.slot i).isVacating && s.link.queue.any (fun e => e.slot == i && e.kind == .retire))
      ∃ t, exec (.linkFlush p w) s = .next t ∧
        (∀ i, t.slot i = if i ∈ freed then .free else s.slot i) ∧
        t = { s with
          table := t.table, freeCount := s.freeCount + freed.length,
          vacatingCount := s.vacatingCount - freed.length, link := { s.link with queue := [] },
          result := some { status := .ok, data := .flushed s.link.queue.length freed.length } }) ∧
    (s.link.state ≠ .off →
      let added := allSlots.flatMap (fun i =>
        match s.slot i with
        | .holding r =>
          if r.publish = true ∧ r.state ≠ .dormant ∧ s.link.queue.all (fun e => e.slot != i) = true then
            [({ slot := i, tag := r.tag, kind := .update } : Entry)]
          else []
        | _ => [])
      exec (.resync p w) s = .next { s with
        link := { s.link with queue := s.link.queue ++ added }
        result := some { status := .ok, data := .entries added.length } })

/-- R142, R143, R144: an accepted SET_LINK replaces the four settings; it enables an OFF link, disables an enabled one, with
TXP high at once (R175), and leaves the rest of an enabled link as it is. -/
def Obligations.SetLinkEnablesAndDisables : Prop :=
  ∀ (p : PortId) (new : LinkSettings) (s : State), s.speaks p 0 → 1 ≤ new.timeoutCode → new.timeoutCode ≤ 15 →
    new.retryLimit ≤ 7 →
    let command : Instr :=
      .setLink p 0 (BitVec.ofNat 8 new.enable.toNat)
        new.bitRate.code (BitVec.ofNat 8 new.timeoutCode)
        (BitVec.ofNat 8 new.retryLimit)
    (s.link.state = .off → new.enable = true →
      exec command s = .next { s with
        link := { s.link with settings := new, state := .idle, queue := [], inFlight := none, nextNumber := 0 }
        result := some { status := .ok, data := .previousLink s.link.settings .idle } }) ∧
    (s.link.state = .off → new.enable = false →
      exec command s = .next { s with
        link := { s.link with settings := new }
        result := some { status := .ok, data := .previousLink s.link.settings .off } }) ∧
    (s.link.state ≠ .off → new.enable = true →
      exec command s = .next { s with
        link := { s.link with settings := new }
        result := some { status := .ok, data := .previousLink s.link.settings s.link.state } }) ∧
    (s.link.state ≠ .off → new.enable = false →
      let freed := allSlots.filter (fun i => (s.slot i).isVacating)
      ∃ t, exec command s = .next t ∧
        (∀ i, t.slot i = if (s.slot i).isVacating then .free else s.slot i) ∧
        t = { s with
          table := t.table, freeCount := s.freeCount + freed.length,
          vacatingCount := s.vacatingCount - freed.length,
          link := { s.link with
            settings := new, state := .off, queue := [], inFlight := none, noted := false, ackTimer := .stopped,
            transmission := .stopped, openByte := none }
          result := some { status := .ok, data := .previousLink s.link.settings .off } } ∧
        t.link.txp = true)

/-! ### Notices, scans and status (chapter 9) -/

/-- R167, R168, R169: an accepted SCAN walks from slot 0 under the filter its bytes spell, whatever cursor was open; an
accepted SCAN_NEXT walks on from the caller's open cursor. Only the port's cursor changes. -/
def Obligations.ScansWalkTheTable : Prop :=
  ∀ (p : PortId) (w : WriterNo) (s : State), s.speaks p w →
    (∀ states owner group : Byte, states.toNat ≤ 15 → owner.toNat ≤ 7 ∨ owner = 0xFE ∨ owner = 0xFF →
      1 ≤ group.toNat ∧ group.toNat ≤ 15 ∨ group = 0xFF →
      ∃ t f, exec (.scan p w states owner group) s = .next t ∧
        (∀ r, f.admits r = r.passes states owner group) ∧
        s.Walks t p w f 0 (Record.passes states owner group)) ∧
    (∀ c, (s.port p).cursor = some c → c.writer = w →
      ∃ t, exec (.scanNext p w) s = .next t ∧ s.Walks t p w c.filter c.nextSlot c.filter.admits)

/-- R165, R171: POLL removes up to eight of the oldest notices and reads and clears the overflow flag; STATUS reports the
condition of the part and clears the two sticky SAFE flags. Nothing else changes. -/
def Obligations.PollAndStatusReportAndClear : Prop :=
  ∀ (p : PortId) (w : WriterNo) (s : State), s.speaks p w →
    (∀ first rest, (s.port p).notices = first ++ rest → first.length = 8 ∨ first.length < 8 ∧ rest = [] →
      exec (.poll p w) s = .next { s.setPort p { s.port p with notices := rest, noticeOverflow := false } with
        result := some { status := .ok, data := .notices (s.port p).noticeOverflow rest.length first } }) ∧
    exec (.status p w) s = .next { s with
      safe := { s.safe with seenActive := false, commitRefused := false }
      result := some
        { status := .ok
          data := .status s.safe.level s.safe.seenActive s.safe.commitRefused s.link.state s.link.queue.length
            s.freeCount s.vacatingCount
            [(s.writer 0).binding, (s.writer 1).binding, (s.writer 2).binding, (s.writer 3).binding,
              (s.writer 4).binding, (s.writer 5).binding, (s.writer 6).binding, (s.writer 7).binding] } }

/-! ### Command ports (chapter 8) -/

/-- R148, R159: the lines of a port. Activation begins a transaction and starts the break interval; each clock edge while
select is active restarts it, but not after a break; release ends the transaction and stops it; a first byte that is
neither code leaves the transaction ignored. While a break is carried out the interval does not run. The bits sampled from
SDI at the rising edges of the clock, most significant first, spell the transaction: 0xA1 a REQUEST with the bytes after
it, 0xA2 a READOUT, any other first byte or none an ignored one (R174). -/
def Obligations.PortLinesDriveTheBreakInterval : Prop :=
  ∀ (p : PortId) (s : State),
    let x := s.port p
    let interval := if x.service = .breaking then x.breakInterval else .running (ms 5)
    (x.transaction = .inactive →
      exec (.selectActivation p) s = .next (s.setPort p { x with transaction := .begun, breakInterval := interval }) ∧
      exec (.clockEdge p) s = .next s) ∧
    (x.transaction ≠ .inactive → exec (.selectActivation p) s = .next s) ∧
    (x.transaction = .broken → exec (.clockEdge p) s = .next s) ∧
    (x.transaction ≠ .inactive → x.transaction ≠ .broken →
      exec (.clockEdge p) s = .next (s.setPort p { x with breakInterval := interval })) ∧
    exec (.selectRelease p) s = .next (s.setPort p { x with transaction := .inactive, breakInterval := .stopped }) ∧
    (x.transaction = .inactive ∨ x.transaction = .begun →
      exec (.transactionIgnored p none) s =
        .next (s.setPort p { x with transaction := .inactive, breakInterval := .stopped }) ∧
      ∀ b : Byte, b ≠ 0xA1 → b ≠ 0xA2 →
        exec (.transactionIgnored p (some b)) s =
          .next (s.setPort p { x with transaction := .ignored, breakInterval := interval })) ∧
    ∀ sdi : List Byte,
      serialCommand p ((sdi.flatMap msbFirst).flatMap (fun bit => [.rising bit, .falling])) =
        match sdi with
        | [] => .transactionIgnored p none
        | code :: bytes =>
          if code = 0xA1 then .request p bytes
          else if code = 0xA2 then .readout p
          else .transactionIgnored p (some code)

/-- R149: a completed request frame is taken and judged by a READY port, which gives up its stored response, and is
discarded with the overrun flag set while the port is IN_SERVICE. A transaction that carries another code, or that a
break or a reset ended, completes no frame (notes/assumptions/6.md). -/
def Obligations.RequestIsTakenOrDiscarded : Prop :=
  ∀ (p : PortId) (bytes : List Byte) (s : State),
    let x := { s.port p with transaction := .inactive, breakInterval := .stopped }
    ((s.port p).transaction = .inactive ∨ (s.port p).transaction = .begun →
      ((s.port p).service = .ready →
        exec (.request p bytes) s = .next (s.setPort p { x with
          service := .serving
            { sequence := bytes[1]?.getD 0, crc := frameCrc bytes, judgement := judgeFrame x.duplicate bytes }
          stored := none
          unreadDiscarded := x.unreadDiscarded || x.stored.any (fun r => !r.read) })) ∧
      ((s.port p).service ≠ .ready →
        exec (.request p bytes) s = .next (s.setPort p { x with overrun := true }))) ∧
    ((s.port p).transaction ≠ .inactive → (s.port p).transaction ≠ .begun →
      exec (.request p bytes) s = .next s)

/-- R150: the order in which a taken frame is judged. -/
def Obligations.FramesAreJudgedInOrder : Prop :=
  ∀ (memory : Option DuplicateMemory) (bytes : List Byte),
    let covered := bytes.take (bytes.length - 2)
    let crcHolds := bytes = withCrc covered
    let repeated := memory.any (fun m => m.sequence == bytes[1]?.getD 0 && m.crc == crc16 covered)
    (240 < bytes.length → judgeFrame memory bytes = .malformed) ∧
    (bytes.length ≤ 240 → bytes.length < 3 ∨ ¬ crcHolds → judgeFrame memory bytes = .crcError) ∧
    (bytes.length ≤ 240 → 3 ≤ bytes.length → crcHolds →
      (readFrame bytes = none → judgeFrame memory bytes = .malformed) ∧
      ∀ w ops, readFrame bytes = some (w, ops) →
        judgeFrame memory bytes = if repeated then .duplicate else .ok w ops)

/-- R152, R153, R156: the completion of a frame stores its response, composed from the port's flags and notices as they
stand then, clears the two flags it reports, and makes the port READY. A batch is applied whole in the same event, and
its results are remembered. -/
def Obligations.FramesCompleteWithTheirResponse : Prop :=
  ∀ (p : PortId) (f : TakenFrame) (s : State), (s.port p).service = .serving f →
    let completed := fun (x : Port) (status : FrameStatus) (results : List OpResult) => { x with
      service := .ready
      overrun := false
      unreadDiscarded := false
      stored := some
        { read := false
          response :=
            { sequence := f.sequence, status := status, overrun := x.overrun, previousUnread := x.unreadDiscarded,
              noticeOverflow := x.noticeOverflow, noticeCount := x.notices.length, results := results } } }
    (f.judgement = .crcError →
      exec (.frameCompletion p) s = .next (s.setPort p (completed (s.port p) .crcError []))) ∧
    (f.judgement = .malformed →
      exec (.frameCompletion p) s = .next (s.setPort p (completed (s.port p) .malformed []))) ∧
    (∀ m, f.judgement = .duplicate → (s.port p).duplicate = some m →
      exec (.frameCompletion p) s = .next (s.setPort p (completed (s.port p) .duplicate m.results))) ∧
    (∀ w ops, f.judgement = .ok w ops →
      let applied := applyBatch p w ops s
      exec (.batchApplication p) s = .next (applied.2.setPort p
        { completed (applied.2.port p) .ok applied.1 with
          duplicate := some { sequence := f.sequence, crc := f.crc, results := applied.1 } }))

/-- R153: the operations of a batch are applied in order, each to the part as those before it left it; the first one
refused changes nothing but the flag of R93 and stops the batch; every operation after it is SKIPPED and not applied. An
operation command does what its operation does in a batch (notes/assumptions/5.md). -/
def Obligations.BatchStopsAtFirstRefusal : Prop :=
  (∀ (p : PortId) (w : WriterNo) (first rest : List Op) (op : Op) (s : State),
    let before := applyBatch p w first s
    (∀ x ∈ before.1, x.status = .ok) →
    ∃ result t, applyBatch p w [op] before.2 = ([result], t) ∧
      (result.status = .ok →
        applyBatch p w (first ++ op :: rest) s =
          (before.1 ++ result :: (applyBatch p w rest t).1, (applyBatch p w rest t).2)) ∧
      (result.status ≠ .ok →
        applyBatch p w (first ++ op :: rest) s =
          (before.1 ++ result :: rest.map (fun _ => { status := .skipped, data := .empty }), t) ∧
        t = if result.status = .safeActive then
            { before.2 with safe := { before.2.safe with commitRefused := true } }
          else before.2)) ∧
  ∀ (c : Instr) (p : PortId) (w : WriterNo) (op : Op) (s : State), operationOf c = some (p, w, op) →
    exec c s = .next { (applyBatch p w [op] s).2 with result := (applyBatch p w [op] s).1.head? }

/-- R157: a READOUT sends the stored response as it stands at its start, or a NONE header; a complete read marks a stored
response as read, and a NONE header marks nothing. SDO carries the bytes most significant bit first, changing at
each falling edge of the clock (the first one: notes/assumptions/19.md), and fill bytes, 0xFF, wherever no response byte is
due (R174). -/
def Obligations.ReadoutSendsTheStoredResponse : Prop :=
  ∀ (p : PortId) (s : State),
    let x := s.port p
    let header : Response :=
      { sequence := 0, status := .none, overrun := x.overrun, previousUnread := x.unreadDiscarded,
        noticeOverflow := x.noticeOverflow, noticeCount := x.notices.length, results := [] }
    (x.transaction = .inactive ∨ x.transaction = .begun →
      exec (.readout p) s = .next (s.setPort p { x with
        transaction :=
          .readout x.stored.isSome (match x.stored with | some r => r.response.bytes | none => header.bytes)
        breakInterval := if x.service = .breaking then x.breakInterval else .running (ms 5) })) ∧
    (x.transaction ≠ .inactive → x.transaction ≠ .begun → exec (.readout p) s = .next s) ∧
    (∀ bytes, x.transaction = .readout true bytes →
      exec (.readoutEnd p) s = .next (s.setPort p { x with
        transaction := .inactive, breakInterval := .stopped,
        stored := x.stored.map (fun r => { r with read := true }) })) ∧
    (∀ bytes, x.transaction = .readout false bytes →
      exec (.readoutEnd p) s = .next (s.setPort p { x with transaction := .inactive, breakInterval := .stopped })) ∧
    (∀ ofStored bytes n, x.transaction = .readout ofStored bytes →
      x.transaction.sdo (n + 1) =
        if n < 8 * bytes.length then (byteAt bytes (n / 8)).getLsbD (7 - n % 8) else true) ∧
    ((∀ ofStored bytes, x.transaction ≠ .readout ofStored bytes) → ∀ n, x.transaction.sdo n = true)

/-- R48, R159, R160: a port break makes the port IN_SERVICE and abandons its frame; one after another the lowest-numbered
writer bound to the port is dismissed; when none is bound any more, at once where none was, the port is READY with its
queue, cursor, response, memory and flags empty. -/
def Obligations.PortBreakDismissesThenClears : Prop :=
  ∀ (p : PortId) (s : State),
    let x := s.port p
    let broken := { x with service := .breaking, breakInterval := .stopped, transaction := .broken }
    let cleared := fun y : Port => { y with
      service := .ready, stored := none, duplicate := none, overrun := false, unreadDiscarded := false, notices := [],
      noticeOverflow := false, cursor := none }
    (x.breakInterval ≠ .stopped →
      ((∃ w, (s.writer w).binding = some p) → exec (.portBreak p) s = .next (s.setPort p broken)) ∧
      ((∀ w, (s.writer w).binding ≠ some p) → exec (.portBreak p) s = .next (s.setPort p (cleared broken)))) ∧
    (x.breakInterval = .stopped → exec (.portBreak p) s = .next s) ∧
    (x.service = .breaking →
      (∀ w, (s.writer w).binding = some p → (∀ v, v < w → (s.writer v).binding ≠ some p) →
        exec (.breakCompletion p) s = .next s ∧
        ∃ t, exec (.breakDismissal p) s = .next t ∧ s.Dismisses t w ∧ t.result = s.result) ∧
      ((∀ w, (s.writer w).binding ≠ some p) →
        exec (.breakDismissal p) s = .next s ∧ exec (.breakCompletion p) s = .next (s.setPort p (cleared x)))) ∧
    (x.service ≠ .breaking → exec (.breakDismissal p) s = .next s ∧ exec (.breakCompletion p) s = .next s)

/-! ### Encodings (chapter 10) -/

/-- R151, 10.2, 10.3: a request frame written for a batch that a frame may carry is read back as that batch, with every
operand as it was sent. -/
def Obligations.WrittenFramesAreReadBack : Prop :=
  ∀ (sequence : Byte) (w : WriterNo) (ops : List Op), batchOk ops = true →
    judgeFrame none (requestFrame sequence w ops) = .ok w ops ∧
      (requestFrame sequence w ops)[1]? = some sequence ∧ (requestFrame sequence w ops).length ≤ 198

/-- R151: a frame that is judged well formed is exactly the frame written for the batch read from it, so that every byte of
it is accounted for. -/
def Obligations.FramesReadAreAsWritten : Prop :=
  ∀ (bytes : List Byte) (w : WriterNo) (ops : List Op), judgeFrame none bytes = .ok w ops →
    batchOk ops = true ∧ ∃ sequence, bytes = requestFrame sequence w ops

/-- 10.7: bytes closed by their CRC leave a register value of 0. -/
def Obligations.CrcLeavesZero : Prop :=
  ∀ bytes : List Byte, crc16 (withCrc bytes) = 0

/-- 10.1, 10.3 to 10.6, R156, R174, R175: the bytes of a response, of the data of every result, of views and notices, and of a
publication frame stand at their offsets, with their codes and CRCs; that the bits of a flag byte which the
tables name for nothing are 0 is the model's choice (notes/assumptions/20.md), and that those which qualify an absent field
are 0 is read from their names (21.md). A frame's 140 bits on TXP are, byte by byte, a low
start bit, the byte's bits from the least significant, and a high stop bit. TXP carries the bit that the transmission has
reached at the rate it began with, and is high while none runs. -/
def Obligations.ResponsesAndFramesAreSentAsLaidOut : Prop :=
  (∀ r : Response, r.results.length ≤ 8 → (∀ x ∈ r.results, x.data.bytes.length ≤ 255) → r.SentAs r.bytes) ∧
  (∀ d : Data, d.SentAs d.bytes) ∧
  (∀ f : PubFrame, f.SentAs f.bytes ∧ f.txpBits.length = 140 ∧
    ∀ k j, k < 14 → j < 10 → f.txpBits[10 * k + j]? =
      some (if j = 0 then false else if j = 9 then true else (byteAt f.bytes k).getLsbD (j - 1))) ∧
  (∀ l : Link,
    (∀ f elapsed rate, l.inFlight = some f → elapsed < 140 * bitTime rate →
      l.transmission = .running (140 * bitTime rate - elapsed) rate →
        f.frame.txpBits[elapsed / bitTime rate]? = some l.txp) ∧
    (l.transmission = .stopped ∨ l.inFlight = none → l.txp = true)) ∧
  ([.free, .vacating, .dormant, .live, .held, .latched] : List SlotState).map SlotState.code = [0, 1, 2, 3, 4, 5] ∧
  ([some .a, some .b, none] : List (Option PortId)).map portByte = [0, 1, 0xFF] ∧
  ([some 0, some 7, none] : List (Option WriterNo)).map ownerByte = [0, 7, 0xFF] ∧
  ([false, true] : List Bool).map yesNoByte = [0, 1] ∧
  ([.keep, .fallback, .retire] : List OrphanPolicy).map OrphanPolicy.code = [0, 1, 2] ∧
  ([.off, .idle, .sending, .awaitingAck, .down] : List LinkState).map LinkState.code = [0, 1, 2, 3, 4] ∧
  ([.released, .active] : List SafeLevel).map SafeLevel.code = [0, 1] ∧
  ([.stopped, .running 1] : List Timer).map Timer.code = [0, 1] ∧
  ([.mbit1, .mbit2, .mbit4] : List BitRate).map BitRate.code = [1, 2, 4] ∧
  ([.new, .reclaim, .takeover] : List ClaimKind).map ClaimKind.code = [0, 1, 2] ∧
  ([.none, .restarted, .refreshed] : List TouchEffect).map TouchEffect.code = [0, 1, 2] ∧
  ([.update, .retire] : List EntryKind).map EntryKind.code = [0, 1] ∧
  ([.ok, .crcError, .malformed, .duplicate, .none] : List FrameStatus).map FrameStatus.code = [0, 1, 2, 3, 4] ∧
  ([.ok, .skipped, .notAdmitted, .wrongPort, .alreadyAdmitted, .noRight, .badOperand, .unknownTag, .duplicateTag,
    .tableFull, .notOwner, .claimHeld, .outranked, .aboveCeiling, .quotaFull, .outOfRange, .limitConflict, .badState,
    .safeActive, .writerBusy, .writerPresent, .noCursor, .linkState] : List Status).map Status.code =
    (List.range 23).map byteOf

/-! ### Laws every step keeps -/

/-- The table's canonical form, and R7, R8: the counts and the Tag Index agree with the table. Every step keeps it. -/
def Obligations.StepKeepsTableIndexAndCounts : Prop :=
  ∀ s t : State, s.tableLaw → s.indexLaw → s.countLaw → step s = .next t →
    t.tableLaw ∧ t.indexLaw ∧ t.countLaw

/-- R2, R3, R105: every record's values lie within its limits, its optional fields and its timers fit its state. Every
step keeps it. -/
def Obligations.StepKeepsRecordLaws : Prop :=
  ∀ s t : State, s.limitsLaw → s.shapeLaw → step s = .next t → t.limitsLaw ∧ t.shapeLaw

/-- R30, R33, R49: owned counts, quotas, precedences, ceilings and bindings agree. Every step keeps it. -/
def Obligations.StepKeepsOwnershipLaws : Prop :=
  ∀ s t : State, s.ownedLaw → s.precedenceLaw → s.profileLaw → step s = .next t →
    t.ownedLaw ∧ t.precedenceLaw ∧ t.profileLaw

/-- R96, R115, R118: while SAFE is active no record is LIVE and no cycle timer runs, and the stability interval runs
exactly while the line is opposite to the filtered level. Every step keeps it. -/
def Obligations.StepKeepsSafeLaws : Prop :=
  ∀ s t : State, s.safeLaw → s.cycleLaw → s.filterLaw → step s = .next t →
    t.safeLaw ∧ t.cycleLaw ∧ t.filterLaw

/-- R14, R124, R126, R127, R144: one pending entry per slot, one frame in flight exactly while it is sent or awaited, a slot
VACATING exactly while its RETIRE entry is pending or in flight, and an OFF link empty. Every step keeps it. -/
def Obligations.StepKeepsLinkLaws : Prop :=
  ∀ s t : State, s.linkLaw → s.queueLaw → s.vacatingLaw → s.inFlightLaw → step s = .next t →
    t.linkLaw ∧ t.queueLaw ∧ t.vacatingLaw ∧ t.inFlightLaw

/-- R147, R159, R163, R167: notices bounded, break intervals confined to active select lines, cursors open only for writers
bound to their port. Every step keeps it. -/
def Obligations.StepKeepsPortLaws : Prop :=
  ∀ s t : State, (∀ p, s.portLaw p) → step s = .next t → ∀ p, t.portLaw p
end

