-- ==== Sys2Proof/Laws/State.lean ====
section
/-! SUPPORT. What each named update leaves in each field of the part, and what each accessor reads after it. -/

namespace Sys2Proof.Machine

variable (s : State)

/-! ### setSlot -/

@[simp] theorem State.setSlot_table (i : SlotNo) (x : Slot) : (s.setSlot i x).table = s.table.write i x := rfl
@[simp] theorem State.setSlot_tagIndex (i : SlotNo) (x : Slot) : (s.setSlot i x).tagIndex = s.tagIndex := rfl
@[simp] theorem State.setSlot_freeCount (i : SlotNo) (x : Slot) : (s.setSlot i x).freeCount = s.freeCount := rfl
@[simp] theorem State.setSlot_vacatingCount (i : SlotNo) (x : Slot) : (s.setSlot i x).vacatingCount = s.vacatingCount := rfl
@[simp] theorem State.setSlot_writers (i : SlotNo) (x : Slot) : (s.setSlot i x).writers = s.writers := rfl
@[simp] theorem State.setSlot_profiles (i : SlotNo) (x : Slot) : (s.setSlot i x).profiles = s.profiles := rfl
@[simp] theorem State.setSlot_groups (i : SlotNo) (x : Slot) : (s.setSlot i x).groups = s.groups := rfl
@[simp] theorem State.setSlot_trg0 (i : SlotNo) (x : Slot) : (s.setSlot i x).trg0 = s.trg0 := rfl
@[simp] theorem State.setSlot_trg1 (i : SlotNo) (x : Slot) : (s.setSlot i x).trg1 = s.trg1 := rfl
@[simp] theorem State.setSlot_safe (i : SlotNo) (x : Slot) : (s.setSlot i x).safe = s.safe := rfl
@[simp] theorem State.setSlot_link (i : SlotNo) (x : Slot) : (s.setSlot i x).link = s.link := rfl
@[simp] theorem State.setSlot_rxp (i : SlotNo) (x : Slot) : (s.setSlot i x).rxp = s.rxp := rfl
@[simp] theorem State.setSlot_portA (i : SlotNo) (x : Slot) : (s.setSlot i x).portA = s.portA := rfl
@[simp] theorem State.setSlot_portB (i : SlotNo) (x : Slot) : (s.setSlot i x).portB = s.portB := rfl
@[simp] theorem State.setSlot_result (i : SlotNo) (x : Slot) : (s.setSlot i x).result = s.result := rfl
@[simp] theorem State.setSlot_choices (i : SlotNo) (x : Slot) : (s.setSlot i x).choices = s.choices := rfl
@[simp] theorem State.setSlot_pending (i : SlotNo) (x : Slot) : (s.setSlot i x).pending = s.pending := rfl

/-! ### setWriter -/

@[simp] theorem State.setWriter_table (w : WriterNo) (x : WriterSlot) : (s.setWriter w x).table = s.table := rfl
@[simp] theorem State.setWriter_tagIndex (w : WriterNo) (x : WriterSlot) : (s.setWriter w x).tagIndex = s.tagIndex := rfl
@[simp] theorem State.setWriter_freeCount (w : WriterNo) (x : WriterSlot) : (s.setWriter w x).freeCount = s.freeCount := rfl
@[simp] theorem State.setWriter_vacatingCount (w : WriterNo) (x : WriterSlot) : (s.setWriter w x).vacatingCount = s.vacatingCount := rfl
@[simp] theorem State.setWriter_writers (w : WriterNo) (x : WriterSlot) : (s.setWriter w x).writers = s.writers.set w x := rfl
@[simp] theorem State.setWriter_profiles (w : WriterNo) (x : WriterSlot) : (s.setWriter w x).profiles = s.profiles := rfl
@[simp] theorem State.setWriter_groups (w : WriterNo) (x : WriterSlot) : (s.setWriter w x).groups = s.groups := rfl
@[simp] theorem State.setWriter_trg0 (w : WriterNo) (x : WriterSlot) : (s.setWriter w x).trg0 = s.trg0 := rfl
@[simp] theorem State.setWriter_trg1 (w : WriterNo) (x : WriterSlot) : (s.setWriter w x).trg1 = s.trg1 := rfl
@[simp] theorem State.setWriter_safe (w : WriterNo) (x : WriterSlot) : (s.setWriter w x).safe = s.safe := rfl
@[simp] theorem State.setWriter_link (w : WriterNo) (x : WriterSlot) : (s.setWriter w x).link = s.link := rfl
@[simp] theorem State.setWriter_rxp (w : WriterNo) (x : WriterSlot) : (s.setWriter w x).rxp = s.rxp := rfl
@[simp] theorem State.setWriter_portA (w : WriterNo) (x : WriterSlot) : (s.setWriter w x).portA = s.portA := rfl
@[simp] theorem State.setWriter_portB (w : WriterNo) (x : WriterSlot) : (s.setWriter w x).portB = s.portB := rfl
@[simp] theorem State.setWriter_result (w : WriterNo) (x : WriterSlot) : (s.setWriter w x).result = s.result := rfl
@[simp] theorem State.setWriter_choices (w : WriterNo) (x : WriterSlot) : (s.setWriter w x).choices = s.choices := rfl
@[simp] theorem State.setWriter_pending (w : WriterNo) (x : WriterSlot) : (s.setWriter w x).pending = s.pending := rfl

/-! ### setProfile -/

@[simp] theorem State.setProfile_table (w : WriterNo) (x : Profile) : (s.setProfile w x).table = s.table := rfl
@[simp] theorem State.setProfile_tagIndex (w : WriterNo) (x : Profile) : (s.setProfile w x).tagIndex = s.tagIndex := rfl
@[simp] theorem State.setProfile_freeCount (w : WriterNo) (x : Profile) : (s.setProfile w x).freeCount = s.freeCount := rfl
@[simp] theorem State.setProfile_vacatingCount (w : WriterNo) (x : Profile) : (s.setProfile w x).vacatingCount = s.vacatingCount := rfl
@[simp] theorem State.setProfile_writers (w : WriterNo) (x : Profile) : (s.setProfile w x).writers = s.writers := rfl
@[simp] theorem State.setProfile_profiles (w : WriterNo) (x : Profile) : (s.setProfile w x).profiles = s.profiles.set w x := rfl
@[simp] theorem State.setProfile_groups (w : WriterNo) (x : Profile) : (s.setProfile w x).groups = s.groups := rfl
@[simp] theorem State.setProfile_trg0 (w : WriterNo) (x : Profile) : (s.setProfile w x).trg0 = s.trg0 := rfl
@[simp] theorem State.setProfile_trg1 (w : WriterNo) (x : Profile) : (s.setProfile w x).trg1 = s.trg1 := rfl
@[simp] theorem State.setProfile_safe (w : WriterNo) (x : Profile) : (s.setProfile w x).safe = s.safe := rfl
@[simp] theorem State.setProfile_link (w : WriterNo) (x : Profile) : (s.setProfile w x).link = s.link := rfl
@[simp] theorem State.setProfile_rxp (w : WriterNo) (x : Profile) : (s.setProfile w x).rxp = s.rxp := rfl
@[simp] theorem State.setProfile_portA (w : WriterNo) (x : Profile) : (s.setProfile w x).portA = s.portA := rfl
@[simp] theorem State.setProfile_portB (w : WriterNo) (x : Profile) : (s.setProfile w x).portB = s.portB := rfl
@[simp] theorem State.setProfile_result (w : WriterNo) (x : Profile) : (s.setProfile w x).result = s.result := rfl
@[simp] theorem State.setProfile_choices (w : WriterNo) (x : Profile) : (s.setProfile w x).choices = s.choices := rfl
@[simp] theorem State.setProfile_pending (w : WriterNo) (x : Profile) : (s.setProfile w x).pending = s.pending := rfl

/-! ### setGroupEntry -/

@[simp] theorem State.setGroupEntry_table (g : GroupNo) (x : GroupEntry) : (s.setGroupEntry g x).table = s.table := rfl
@[simp] theorem State.setGroupEntry_tagIndex (g : GroupNo) (x : GroupEntry) : (s.setGroupEntry g x).tagIndex = s.tagIndex := rfl
@[simp] theorem State.setGroupEntry_freeCount (g : GroupNo) (x : GroupEntry) : (s.setGroupEntry g x).freeCount = s.freeCount := rfl
@[simp] theorem State.setGroupEntry_vacatingCount (g : GroupNo) (x : GroupEntry) : (s.setGroupEntry g x).vacatingCount = s.vacatingCount := rfl
@[simp] theorem State.setGroupEntry_writers (g : GroupNo) (x : GroupEntry) : (s.setGroupEntry g x).writers = s.writers := rfl
@[simp] theorem State.setGroupEntry_profiles (g : GroupNo) (x : GroupEntry) : (s.setGroupEntry g x).profiles = s.profiles := rfl
@[simp] theorem State.setGroupEntry_groups (g : GroupNo) (x : GroupEntry) : (s.setGroupEntry g x).groups = s.groups.set g x := rfl
@[simp] theorem State.setGroupEntry_trg0 (g : GroupNo) (x : GroupEntry) : (s.setGroupEntry g x).trg0 = s.trg0 := rfl
@[simp] theorem State.setGroupEntry_trg1 (g : GroupNo) (x : GroupEntry) : (s.setGroupEntry g x).trg1 = s.trg1 := rfl
@[simp] theorem State.setGroupEntry_safe (g : GroupNo) (x : GroupEntry) : (s.setGroupEntry g x).safe = s.safe := rfl
@[simp] theorem State.setGroupEntry_link (g : GroupNo) (x : GroupEntry) : (s.setGroupEntry g x).link = s.link := rfl
@[simp] theorem State.setGroupEntry_rxp (g : GroupNo) (x : GroupEntry) : (s.setGroupEntry g x).rxp = s.rxp := rfl
@[simp] theorem State.setGroupEntry_portA (g : GroupNo) (x : GroupEntry) : (s.setGroupEntry g x).portA = s.portA := rfl
@[simp] theorem State.setGroupEntry_portB (g : GroupNo) (x : GroupEntry) : (s.setGroupEntry g x).portB = s.portB := rfl
@[simp] theorem State.setGroupEntry_result (g : GroupNo) (x : GroupEntry) : (s.setGroupEntry g x).result = s.result := rfl
@[simp] theorem State.setGroupEntry_choices (g : GroupNo) (x : GroupEntry) : (s.setGroupEntry g x).choices = s.choices := rfl
@[simp] theorem State.setGroupEntry_pending (g : GroupNo) (x : GroupEntry) : (s.setGroupEntry g x).pending = s.pending := rfl

/-! ### setLink -/

@[simp] theorem State.setLink_table (x : Link) : (s.setLink x).table = s.table := rfl
@[simp] theorem State.setLink_tagIndex (x : Link) : (s.setLink x).tagIndex = s.tagIndex := rfl
@[simp] theorem State.setLink_freeCount (x : Link) : (s.setLink x).freeCount = s.freeCount := rfl
@[simp] theorem State.setLink_vacatingCount (x : Link) : (s.setLink x).vacatingCount = s.vacatingCount := rfl
@[simp] theorem State.setLink_writers (x : Link) : (s.setLink x).writers = s.writers := rfl
@[simp] theorem State.setLink_profiles (x : Link) : (s.setLink x).profiles = s.profiles := rfl
@[simp] theorem State.setLink_groups (x : Link) : (s.setLink x).groups = s.groups := rfl
@[simp] theorem State.setLink_trg0 (x : Link) : (s.setLink x).trg0 = s.trg0 := rfl
@[simp] theorem State.setLink_trg1 (x : Link) : (s.setLink x).trg1 = s.trg1 := rfl
@[simp] theorem State.setLink_safe (x : Link) : (s.setLink x).safe = s.safe := rfl
@[simp] theorem State.setLink_link (x : Link) : (s.setLink x).link = x := rfl
@[simp] theorem State.setLink_rxp (x : Link) : (s.setLink x).rxp = s.rxp := rfl
@[simp] theorem State.setLink_portA (x : Link) : (s.setLink x).portA = s.portA := rfl
@[simp] theorem State.setLink_portB (x : Link) : (s.setLink x).portB = s.portB := rfl
@[simp] theorem State.setLink_result (x : Link) : (s.setLink x).result = s.result := rfl
@[simp] theorem State.setLink_choices (x : Link) : (s.setLink x).choices = s.choices := rfl
@[simp] theorem State.setLink_pending (x : Link) : (s.setLink x).pending = s.pending := rfl

/-! ### setSafe -/

@[simp] theorem State.setSafe_table (x : SafeState) : (s.setSafe x).table = s.table := rfl
@[simp] theorem State.setSafe_tagIndex (x : SafeState) : (s.setSafe x).tagIndex = s.tagIndex := rfl
@[simp] theorem State.setSafe_freeCount (x : SafeState) : (s.setSafe x).freeCount = s.freeCount := rfl
@[simp] theorem State.setSafe_vacatingCount (x : SafeState) : (s.setSafe x).vacatingCount = s.vacatingCount := rfl
@[simp] theorem State.setSafe_writers (x : SafeState) : (s.setSafe x).writers = s.writers := rfl
@[simp] theorem State.setSafe_profiles (x : SafeState) : (s.setSafe x).profiles = s.profiles := rfl
@[simp] theorem State.setSafe_groups (x : SafeState) : (s.setSafe x).groups = s.groups := rfl
@[simp] theorem State.setSafe_trg0 (x : SafeState) : (s.setSafe x).trg0 = s.trg0 := rfl
@[simp] theorem State.setSafe_trg1 (x : SafeState) : (s.setSafe x).trg1 = s.trg1 := rfl
@[simp] theorem State.setSafe_safe (x : SafeState) : (s.setSafe x).safe = x := rfl
@[simp] theorem State.setSafe_link (x : SafeState) : (s.setSafe x).link = s.link := rfl
@[simp] theorem State.setSafe_rxp (x : SafeState) : (s.setSafe x).rxp = s.rxp := rfl
@[simp] theorem State.setSafe_portA (x : SafeState) : (s.setSafe x).portA = s.portA := rfl
@[simp] theorem State.setSafe_portB (x : SafeState) : (s.setSafe x).portB = s.portB := rfl
@[simp] theorem State.setSafe_result (x : SafeState) : (s.setSafe x).result = s.result := rfl
@[simp] theorem State.setSafe_choices (x : SafeState) : (s.setSafe x).choices = s.choices := rfl
@[simp] theorem State.setSafe_pending (x : SafeState) : (s.setSafe x).pending = s.pending := rfl

/-! ### setQueue -/

@[simp] theorem State.setQueue_table (q : List Entry) : (s.setQueue q).table = s.table := rfl
@[simp] theorem State.setQueue_tagIndex (q : List Entry) : (s.setQueue q).tagIndex = s.tagIndex := rfl
@[simp] theorem State.setQueue_freeCount (q : List Entry) : (s.setQueue q).freeCount = s.freeCount := rfl
@[simp] theorem State.setQueue_vacatingCount (q : List Entry) : (s.setQueue q).vacatingCount = s.vacatingCount := rfl
@[simp] theorem State.setQueue_writers (q : List Entry) : (s.setQueue q).writers = s.writers := rfl
@[simp] theorem State.setQueue_profiles (q : List Entry) : (s.setQueue q).profiles = s.profiles := rfl
@[simp] theorem State.setQueue_groups (q : List Entry) : (s.setQueue q).groups = s.groups := rfl
@[simp] theorem State.setQueue_trg0 (q : List Entry) : (s.setQueue q).trg0 = s.trg0 := rfl
@[simp] theorem State.setQueue_trg1 (q : List Entry) : (s.setQueue q).trg1 = s.trg1 := rfl
@[simp] theorem State.setQueue_safe (q : List Entry) : (s.setQueue q).safe = s.safe := rfl
@[simp] theorem State.setQueue_link (q : List Entry) : (s.setQueue q).link = { s.link with queue := q } := rfl
@[simp] theorem State.setQueue_rxp (q : List Entry) : (s.setQueue q).rxp = s.rxp := rfl
@[simp] theorem State.setQueue_portA (q : List Entry) : (s.setQueue q).portA = s.portA := rfl
@[simp] theorem State.setQueue_portB (q : List Entry) : (s.setQueue q).portB = s.portB := rfl
@[simp] theorem State.setQueue_result (q : List Entry) : (s.setQueue q).result = s.result := rfl
@[simp] theorem State.setQueue_choices (q : List Entry) : (s.setQueue q).choices = s.choices := rfl
@[simp] theorem State.setQueue_pending (q : List Entry) : (s.setQueue q).pending = s.pending := rfl

/-! ### setTrigger -/

@[simp] theorem State.setTrigger_table (l : TriggerLine) (x : TriggerEntry) : (s.setTrigger l x).table = s.table := by cases l <;> rfl
@[simp] theorem State.setTrigger_tagIndex (l : TriggerLine) (x : TriggerEntry) : (s.setTrigger l x).tagIndex = s.tagIndex := by cases l <;> rfl
@[simp] theorem State.setTrigger_freeCount (l : TriggerLine) (x : TriggerEntry) : (s.setTrigger l x).freeCount = s.freeCount := by cases l <;> rfl
@[simp] theorem State.setTrigger_vacatingCount (l : TriggerLine) (x : TriggerEntry) : (s.setTrigger l x).vacatingCount = s.vacatingCount := by cases l <;> rfl
@[simp] theorem State.setTrigger_writers (l : TriggerLine) (x : TriggerEntry) : (s.setTrigger l x).writers = s.writers := by cases l <;> rfl
@[simp] theorem State.setTrigger_profiles (l : TriggerLine) (x : TriggerEntry) : (s.setTrigger l x).profiles = s.profiles := by cases l <;> rfl
@[simp] theorem State.setTrigger_groups (l : TriggerLine) (x : TriggerEntry) : (s.setTrigger l x).groups = s.groups := by cases l <;> rfl
@[simp] theorem State.setTrigger_safe (l : TriggerLine) (x : TriggerEntry) : (s.setTrigger l x).safe = s.safe := by cases l <;> rfl
@[simp] theorem State.setTrigger_link (l : TriggerLine) (x : TriggerEntry) : (s.setTrigger l x).link = s.link := by cases l <;> rfl
@[simp] theorem State.setTrigger_rxp (l : TriggerLine) (x : TriggerEntry) : (s.setTrigger l x).rxp = s.rxp := by cases l <;> rfl
@[simp] theorem State.setTrigger_portA (l : TriggerLine) (x : TriggerEntry) : (s.setTrigger l x).portA = s.portA := by cases l <;> rfl
@[simp] theorem State.setTrigger_portB (l : TriggerLine) (x : TriggerEntry) : (s.setTrigger l x).portB = s.portB := by cases l <;> rfl
@[simp] theorem State.setTrigger_result (l : TriggerLine) (x : TriggerEntry) : (s.setTrigger l x).result = s.result := by cases l <;> rfl
@[simp] theorem State.setTrigger_choices (l : TriggerLine) (x : TriggerEntry) : (s.setTrigger l x).choices = s.choices := by cases l <;> rfl
@[simp] theorem State.setTrigger_pending (l : TriggerLine) (x : TriggerEntry) : (s.setTrigger l x).pending = s.pending := by cases l <;> rfl

/-! ### setPort -/

@[simp] theorem State.setPort_table (p : PortId) (x : Port) : (s.setPort p x).table = s.table := by cases p <;> rfl
@[simp] theorem State.setPort_tagIndex (p : PortId) (x : Port) : (s.setPort p x).tagIndex = s.tagIndex := by cases p <;> rfl
@[simp] theorem State.setPort_freeCount (p : PortId) (x : Port) : (s.setPort p x).freeCount = s.freeCount := by cases p <;> rfl
@[simp] theorem State.setPort_vacatingCount (p : PortId) (x : Port) : (s.setPort p x).vacatingCount = s.vacatingCount := by cases p <;> rfl
@[simp] theorem State.setPort_writers (p : PortId) (x : Port) : (s.setPort p x).writers = s.writers := by cases p <;> rfl
@[simp] theorem State.setPort_profiles (p : PortId) (x : Port) : (s.setPort p x).profiles = s.profiles := by cases p <;> rfl
@[simp] theorem State.setPort_groups (p : PortId) (x : Port) : (s.setPort p x).groups = s.groups := by cases p <;> rfl
@[simp] theorem State.setPort_trg0 (p : PortId) (x : Port) : (s.setPort p x).trg0 = s.trg0 := by cases p <;> rfl
@[simp] theorem State.setPort_trg1 (p : PortId) (x : Port) : (s.setPort p x).trg1 = s.trg1 := by cases p <;> rfl
@[simp] theorem State.setPort_safe (p : PortId) (x : Port) : (s.setPort p x).safe = s.safe := by cases p <;> rfl
@[simp] theorem State.setPort_link (p : PortId) (x : Port) : (s.setPort p x).link = s.link := by cases p <;> rfl
@[simp] theorem State.setPort_rxp (p : PortId) (x : Port) : (s.setPort p x).rxp = s.rxp := by cases p <;> rfl
@[simp] theorem State.setPort_result (p : PortId) (x : Port) : (s.setPort p x).result = s.result := by cases p <;> rfl
@[simp] theorem State.setPort_choices (p : PortId) (x : Port) : (s.setPort p x).choices = s.choices := by cases p <;> rfl
@[simp] theorem State.setPort_pending (p : PortId) (x : Port) : (s.setPort p x).pending = s.pending := by cases p <;> rfl

/-! ### Accessors after an update of another piece -/

@[simp] theorem State.writer_setSlot (i : SlotNo) (x : Slot) (v : WriterNo) : (s.setSlot i x).writer v = s.writer v := rfl
@[simp] theorem State.profile_setSlot (i : SlotNo) (x : Slot) (v : WriterNo) : (s.setSlot i x).profile v = s.profile v := rfl
@[simp] theorem State.groupEntry_setSlot (i : SlotNo) (x : Slot) (h : GroupNo) : (s.setSlot i x).groupEntry h = s.groupEntry h := rfl
@[simp] theorem State.trigger_setSlot (i : SlotNo) (x : Slot) (m : TriggerLine) : (s.setSlot i x).trigger m = s.trigger m := rfl
@[simp] theorem State.port_setSlot (i : SlotNo) (x : Slot) (q : PortId) : (s.setSlot i x).port q = s.port q := rfl
@[simp] theorem State.pendingAt_setSlot (i : SlotNo) (x : Slot) (j : SlotNo) : (s.setSlot i x).pendingAt j = s.pendingAt j := rfl
@[simp] theorem State.safeActive_setSlot (i : SlotNo) (x : Slot) : (s.setSlot i x).safeActive = s.safeActive := rfl
@[simp] theorem State.slot_setWriter (w : WriterNo) (x : WriterSlot) (j : SlotNo) : (s.setWriter w x).slot j = s.slot j := rfl
@[simp] theorem State.profile_setWriter (w : WriterNo) (x : WriterSlot) (v : WriterNo) : (s.setWriter w x).profile v = s.profile v := rfl
@[simp] theorem State.groupEntry_setWriter (w : WriterNo) (x : WriterSlot) (h : GroupNo) : (s.setWriter w x).groupEntry h = s.groupEntry h := rfl
@[simp] theorem State.trigger_setWriter (w : WriterNo) (x : WriterSlot) (m : TriggerLine) : (s.setWriter w x).trigger m = s.trigger m := rfl
@[simp] theorem State.port_setWriter (w : WriterNo) (x : WriterSlot) (q : PortId) : (s.setWriter w x).port q = s.port q := rfl
@[simp] theorem State.pendingAt_setWriter (w : WriterNo) (x : WriterSlot) (j : SlotNo) : (s.setWriter w x).pendingAt j = s.pendingAt j := rfl
@[simp] theorem State.safeActive_setWriter (w : WriterNo) (x : WriterSlot) : (s.setWriter w x).safeActive = s.safeActive := rfl
@[simp] theorem State.find_setWriter (w : WriterNo) (x : WriterSlot) (tag : Word16) : (s.setWriter w x).find tag = s.find tag := rfl
@[simp] theorem State.slot_setProfile (w : WriterNo) (x : Profile) (j : SlotNo) : (s.setProfile w x).slot j = s.slot j := rfl
@[simp] theorem State.writer_setProfile (w : WriterNo) (x : Profile) (v : WriterNo) : (s.setProfile w x).writer v = s.writer v := rfl
@[simp] theorem State.groupEntry_setProfile (w : WriterNo) (x : Profile) (h : GroupNo) : (s.setProfile w x).groupEntry h = s.groupEntry h := rfl
@[simp] theorem State.trigger_setProfile (w : WriterNo) (x : Profile) (m : TriggerLine) : (s.setProfile w x).trigger m = s.trigger m := rfl
@[simp] theorem State.port_setProfile (w : WriterNo) (x : Profile) (q : PortId) : (s.setProfile w x).port q = s.port q := rfl
@[simp] theorem State.pendingAt_setProfile (w : WriterNo) (x : Profile) (j : SlotNo) : (s.setProfile w x).pendingAt j = s.pendingAt j := rfl
@[simp] theorem State.safeActive_setProfile (w : WriterNo) (x : Profile) : (s.setProfile w x).safeActive = s.safeActive := rfl
@[simp] theorem State.find_setProfile (w : WriterNo) (x : Profile) (tag : Word16) : (s.setProfile w x).find tag = s.find tag := rfl
@[simp] theorem State.slot_setGroupEntry (g : GroupNo) (x : GroupEntry) (j : SlotNo) : (s.setGroupEntry g x).slot j = s.slot j := rfl
@[simp] theorem State.writer_setGroupEntry (g : GroupNo) (x : GroupEntry) (v : WriterNo) : (s.setGroupEntry g x).writer v = s.writer v := rfl
@[simp] theorem State.profile_setGroupEntry (g : GroupNo) (x : GroupEntry) (v : WriterNo) : (s.setGroupEntry g x).profile v = s.profile v := rfl
@[simp] theorem State.trigger_setGroupEntry (g : GroupNo) (x : GroupEntry) (m : TriggerLine) : (s.setGroupEntry g x).trigger m = s.trigger m := rfl
@[simp] theorem State.port_setGroupEntry (g : GroupNo) (x : GroupEntry) (q : PortId) : (s.setGroupEntry g x).port q = s.port q := rfl
@[simp] theorem State.pendingAt_setGroupEntry (g : GroupNo) (x : GroupEntry) (j : SlotNo) : (s.setGroupEntry g x).pendingAt j = s.pendingAt j := rfl
@[simp] theorem State.safeActive_setGroupEntry (g : GroupNo) (x : GroupEntry) : (s.setGroupEntry g x).safeActive = s.safeActive := rfl
@[simp] theorem State.find_setGroupEntry (g : GroupNo) (x : GroupEntry) (tag : Word16) : (s.setGroupEntry g x).find tag = s.find tag := rfl
@[simp] theorem State.slot_setLink (x : Link) (j : SlotNo) : (s.setLink x).slot j = s.slot j := rfl
@[simp] theorem State.writer_setLink (x : Link) (v : WriterNo) : (s.setLink x).writer v = s.writer v := rfl
@[simp] theorem State.profile_setLink (x : Link) (v : WriterNo) : (s.setLink x).profile v = s.profile v := rfl
@[simp] theorem State.groupEntry_setLink (x : Link) (h : GroupNo) : (s.setLink x).groupEntry h = s.groupEntry h := rfl
@[simp] theorem State.trigger_setLink (x : Link) (m : TriggerLine) : (s.setLink x).trigger m = s.trigger m := rfl
@[simp] theorem State.port_setLink (x : Link) (q : PortId) : (s.setLink x).port q = s.port q := rfl
@[simp] theorem State.safeActive_setLink (x : Link) : (s.setLink x).safeActive = s.safeActive := rfl
@[simp] theorem State.find_setLink (x : Link) (tag : Word16) : (s.setLink x).find tag = s.find tag := rfl
@[simp] theorem State.slot_setSafe (x : SafeState) (j : SlotNo) : (s.setSafe x).slot j = s.slot j := rfl
@[simp] theorem State.writer_setSafe (x : SafeState) (v : WriterNo) : (s.setSafe x).writer v = s.writer v := rfl
@[simp] theorem State.profile_setSafe (x : SafeState) (v : WriterNo) : (s.setSafe x).profile v = s.profile v := rfl
@[simp] theorem State.groupEntry_setSafe (x : SafeState) (h : GroupNo) : (s.setSafe x).groupEntry h = s.groupEntry h := rfl
@[simp] theorem State.trigger_setSafe (x : SafeState) (m : TriggerLine) : (s.setSafe x).trigger m = s.trigger m := rfl
@[simp] theorem State.port_setSafe (x : SafeState) (q : PortId) : (s.setSafe x).port q = s.port q := rfl
@[simp] theorem State.pendingAt_setSafe (x : SafeState) (j : SlotNo) : (s.setSafe x).pendingAt j = s.pendingAt j := rfl
@[simp] theorem State.find_setSafe (x : SafeState) (tag : Word16) : (s.setSafe x).find tag = s.find tag := rfl
@[simp] theorem State.slot_setQueue (q : List Entry) (j : SlotNo) : (s.setQueue q).slot j = s.slot j := rfl
@[simp] theorem State.writer_setQueue (q : List Entry) (v : WriterNo) : (s.setQueue q).writer v = s.writer v := rfl
@[simp] theorem State.profile_setQueue (q : List Entry) (v : WriterNo) : (s.setQueue q).profile v = s.profile v := rfl
@[simp] theorem State.groupEntry_setQueue (q : List Entry) (h : GroupNo) : (s.setQueue q).groupEntry h = s.groupEntry h := rfl
@[simp] theorem State.trigger_setQueue (q : List Entry) (m : TriggerLine) : (s.setQueue q).trigger m = s.trigger m := rfl
@[simp] theorem State.port_setQueue (q : List Entry) (p : PortId) : (s.setQueue q).port p = s.port p := rfl
@[simp] theorem State.safeActive_setQueue (q : List Entry) : (s.setQueue q).safeActive = s.safeActive := rfl
@[simp] theorem State.find_setQueue (q : List Entry) (tag : Word16) : (s.setQueue q).find tag = s.find tag := rfl
@[simp] theorem State.slot_setTrigger (l : TriggerLine) (x : TriggerEntry) (j : SlotNo) : (s.setTrigger l x).slot j = s.slot j := by cases l <;> rfl
@[simp] theorem State.writer_setTrigger (l : TriggerLine) (x : TriggerEntry) (v : WriterNo) : (s.setTrigger l x).writer v = s.writer v := by cases l <;> rfl
@[simp] theorem State.profile_setTrigger (l : TriggerLine) (x : TriggerEntry) (v : WriterNo) : (s.setTrigger l x).profile v = s.profile v := by cases l <;> rfl
@[simp] theorem State.groupEntry_setTrigger (l : TriggerLine) (x : TriggerEntry) (h : GroupNo) : (s.setTrigger l x).groupEntry h = s.groupEntry h := by cases l <;> rfl
@[simp] theorem State.port_setTrigger (l : TriggerLine) (x : TriggerEntry) (q : PortId) : (s.setTrigger l x).port q = s.port q := by cases l <;> rfl
@[simp] theorem State.pendingAt_setTrigger (l : TriggerLine) (x : TriggerEntry) (j : SlotNo) : (s.setTrigger l x).pendingAt j = s.pendingAt j := by cases l <;> rfl
@[simp] theorem State.safeActive_setTrigger (l : TriggerLine) (x : TriggerEntry) : (s.setTrigger l x).safeActive = s.safeActive := by cases l <;> rfl
@[simp] theorem State.find_setTrigger (l : TriggerLine) (x : TriggerEntry) (tag : Word16) : (s.setTrigger l x).find tag = s.find tag := by cases l <;> rfl
@[simp] theorem State.slot_setPort (p : PortId) (x : Port) (j : SlotNo) : (s.setPort p x).slot j = s.slot j := by cases p <;> rfl
@[simp] theorem State.writer_setPort (p : PortId) (x : Port) (v : WriterNo) : (s.setPort p x).writer v = s.writer v := by cases p <;> rfl
@[simp] theorem State.profile_setPort (p : PortId) (x : Port) (v : WriterNo) : (s.setPort p x).profile v = s.profile v := by cases p <;> rfl
@[simp] theorem State.groupEntry_setPort (p : PortId) (x : Port) (h : GroupNo) : (s.setPort p x).groupEntry h = s.groupEntry h := by cases p <;> rfl
@[simp] theorem State.trigger_setPort (p : PortId) (x : Port) (m : TriggerLine) : (s.setPort p x).trigger m = s.trigger m := by cases p <;> rfl
@[simp] theorem State.pendingAt_setPort (p : PortId) (x : Port) (j : SlotNo) : (s.setPort p x).pendingAt j = s.pendingAt j := by cases p <;> rfl
@[simp] theorem State.safeActive_setPort (p : PortId) (x : Port) : (s.setPort p x).safeActive = s.safeActive := by cases p <;> rfl
@[simp] theorem State.find_setPort (p : PortId) (x : Port) (tag : Word16) : (s.setPort p x).find tag = s.find tag := by cases p <;> rfl

/-! ### Reading back what was written -/

@[simp] theorem State.writer_setWriter (w v : WriterNo) (x : WriterSlot) :
    (s.setWriter w x).writer v = if w = v then x else s.writer v := by
  simp [State.writer, State.setWriter, Vector.getElem_set, Fin.ext_iff]

@[simp] theorem State.profile_setProfile (w v : WriterNo) (x : Profile) :
    (s.setProfile w x).profile v = if w = v then x else s.profile v := by
  simp [State.profile, State.setProfile, Vector.getElem_set, Fin.ext_iff]

@[simp] theorem State.groupEntry_setGroupEntry (g h : GroupNo) (x : GroupEntry) :
    (s.setGroupEntry g x).groupEntry h = if g = h then x else s.groupEntry h := by
  simp [State.groupEntry, State.setGroupEntry, Vector.getElem_set, Fin.ext_iff]

@[simp] theorem State.trigger_setTrigger (l m : TriggerLine) (x : TriggerEntry) :
    (s.setTrigger l x).trigger m = if l = m then x else s.trigger m := by
  cases l <;> cases m <;> rfl

@[simp] theorem State.port_setPort (p q : PortId) (x : Port) :
    (s.setPort p x).port q = if p = q then x else s.port q := by
  cases p <;> cases q <;> rfl

@[simp] theorem State.pendingAt_setQueue (q : List Entry) (j : SlotNo) :
    (s.setQueue q).pendingAt j = q.any (fun e => e.slot == j) := rfl

@[simp] theorem State.safeActive_setSafe (x : SafeState) : (s.setSafe x).safeActive = (x.level == .active) := rfl

theorem State.pendingAt_iff (i : SlotNo) : s.pendingAt i = true ↔ ∃ e ∈ s.link.queue, e.slot = i := by
  simp [State.pendingAt]

@[simp] theorem State.safeActive_iff : s.safeActive = true ↔ s.safe.level = .active := by
  simp [State.safeActive]

end Sys2Proof.Machine
end

