-- ==== Sys2Proof/Laws/Table.lean ====
section
/-! SUPPORT. Reading the Record Table after a write, its canonical form, and looking up the Tag Index after an entry
joins or leaves it. All of it holds of any table and any index. -/

namespace Sys2Proof.Machine

/-! ### The Record Table -/

theorem Table.read_insert (t : Table) (i j : SlotNo) (x : Slot) :
    (Table.insert i x t).read j = if i = j then x else t.read j := by
  induction t with
  | nil => simp [Table.insert, Table.read]
  | cons e t ih =>
    obtain ⟨k, y⟩ := e
    by_cases h1 : i < k
    · simp [Table.insert, Table.read, h1]
    · by_cases h2 : i = k
      · subst h2
        by_cases h3 : i = j <;> simp [Table.insert, Table.read, h3]
      · by_cases h3 : i = j
        · subst h3
          simp [Table.insert, Table.read, h1, h2, ih, Ne.symm h2]
        · simp [Table.insert, Table.read, h1, h2, ih, h3]

theorem Table.read_filter (t : Table) (i j : SlotNo) :
    Table.read (t.filter (fun e => e.1 ≠ i)) j = if i = j then .free else t.read j := by
  induction t with
  | nil => simp [Table.read]
  | cons e t ih =>
    obtain ⟨k, y⟩ := e
    by_cases h1 : k = i
    · subst h1
      by_cases h3 : k = j
      · subst h3; simpa using ih
      · simpa [Table.read, h3] using ih
    · by_cases h3 : i = j
      · subst h3; simp [Table.read, h1] at ih ⊢; exact ih
      · rw [if_neg h3] at ih
        by_cases h4 : k = j
        · subst h4; simp [Table.read, h1, h3]
        · simpa [List.filter_cons, Table.read, h1, h3, h4] using ih

/-- A slot written reads as written, and every other slot reads as before. -/
@[simp] theorem Table.read_write (t : Table) (i j : SlotNo) (x : Slot) :
    (t.write i x).read j = if i = j then x else t.read j := by
  by_cases h : x = .free
  · subst h; simpa [Table.write] using Table.read_filter t i j
  · simp [Table.write, h, Table.read_insert]

/-- A slot replaced holds what it was given, and every other slot holds what it held. -/
@[simp] theorem State.slot_setSlot (s : State) (i j : SlotNo) (x : Slot) :
    (s.setSlot i x).slot j = if i = j then x else s.slot j :=
  Table.read_write s.table i j x

theorem Table.wf_iff (t : Table) :
    t.wf = true ↔ t.Pairwise (fun a b => a.1 < b.1) ∧ ∀ e ∈ t, e.2 ≠ .free := by
  simp [Table.wf]

theorem Table.mem_insert {t : Table} {i : SlotNo} {x : Slot} {e : SlotNo × Slot}
    (h : e ∈ Table.insert i x t) : e = (i, x) ∨ e ∈ t := by
  induction t with
  | nil => simpa [Table.insert] using h
  | cons f t ih =>
    obtain ⟨k, y⟩ := f
    by_cases h1 : i < k
    · simpa [Table.insert, h1] using h
    · by_cases h2 : i = k
      · simp [Table.insert, h2] at h
        rcases h with h | h
        · exact .inl (by simp [h, h2])
        · exact .inr (List.mem_cons_of_mem _ h)
      · simp only [Table.insert, h1, h2, if_false, List.mem_cons] at h
        rcases h with h | h
        · exact .inr (by simp [h])
        · rcases ih h with h | h
          · exact .inl h
          · exact .inr (List.mem_cons_of_mem _ h)

theorem Table.pairwise_insert {t : Table} (i : SlotNo) (x : Slot)
    (h : t.Pairwise (fun a b => a.1 < b.1)) : (Table.insert i x t).Pairwise (fun a b => a.1 < b.1) := by
  induction t with
  | nil => simp [Table.insert]
  | cons f t ih =>
    obtain ⟨k, y⟩ := f
    obtain ⟨hk, ht⟩ := List.pairwise_cons.mp h
    by_cases h1 : i < k
    · simp only [Table.insert, h1, if_true]
      refine List.pairwise_cons.mpr ⟨fun e he => ?_, h⟩
      rcases List.mem_cons.mp he with rfl | he
      · exact h1
      · exact lt_trans h1 (hk e he)
    · by_cases h2 : i = k
      · subst h2
        simpa [Table.insert] using List.pairwise_cons.mpr ⟨hk, ht⟩
      · simp only [Table.insert, h1, h2, if_false]
        refine List.pairwise_cons.mpr ⟨fun e he => ?_, ih ht⟩
        rcases Table.mem_insert he with rfl | he
        · exact lt_of_le_of_ne (not_lt.mp h1) (Ne.symm h2)
        · exact hk e he

/-- Every write keeps the canonical form. -/
theorem Table.wf_write {t : Table} (h : t.wf = true) (i : SlotNo) (x : Slot) : (t.write i x).wf = true := by
  rw [Table.wf_iff] at h ⊢
  by_cases hx : x = .free
  · simp only [Table.write, hx, if_true]
    exact ⟨h.1.filter _, fun e he => h.2 e (List.mem_of_mem_filter he)⟩
  · simp only [Table.write, hx, if_false]
    refine ⟨Table.pairwise_insert i x h.1, fun e he => ?_⟩
    rcases Table.mem_insert he with rfl | he
    · exact hx
    · exact h.2 e he

/-- The table after reset has the canonical form. -/
theorem Table.wf_reset : State.reset.table.wf = true := by decide

/-- A slot below every listed slot is FREE. -/
theorem Table.read_of_lt {t : Table} {i : SlotNo} (h : ∀ e ∈ t, i < e.1) : t.read i = .free := by
  induction t with
  | nil => rfl
  | cons f t ih =>
    obtain ⟨k, y⟩ := f
    have hk : k ≠ i := ne_of_gt (h (k, y) (List.mem_cons_self ..))
    simp only [Table.read, hk, if_false]
    exact ih fun e he => h e (List.mem_cons_of_mem _ he)

/-! ### The Tag Index -/

theorem lookup_cons_if (t k : Word16) (j : SlotNo) (ix : List (Word16 × SlotNo)) :
    List.lookup t ((k, j) :: ix) = if t = k then some j else ix.lookup t := by
  by_cases h : t = k
  · subst h; simp
  · simp [List.lookup_cons, h, beq_eq_false_iff_ne.mpr h]

/-- A tag entered in the index is found there, and every other tag as before. -/
theorem indexInsert_lookup (tag t : Word16) (i : SlotNo) (ix : List (Word16 × SlotNo)) :
    (indexInsert tag i ix).lookup t = if t = tag then some i else ix.lookup t := by
  induction ix with
  | nil => simp only [indexInsert, lookup_cons_if]
  | cons e ix ih =>
    obtain ⟨k, j⟩ := e
    by_cases h1 : tag < k
    · simp only [indexInsert, h1, if_true, lookup_cons_if]
    · by_cases h2 : tag = k
      · subst h2
        simp only [indexInsert, h1, if_false, if_true, lookup_cons_if]
        split <;> rfl
      · simp only [indexInsert, h1, h2, if_false, lookup_cons_if, ih]
        by_cases h : t = tag
        · subst h; simp [h2]
        · simp [h]

/-- A tag erased from the index is not found there, and every other tag as before. -/
theorem indexErase_lookup (tag t : Word16) (ix : List (Word16 × SlotNo)) :
    (indexErase tag ix).lookup t = if t = tag then none else ix.lookup t := by
  unfold indexErase
  induction ix with
  | nil => simp
  | cons e ix ih =>
    obtain ⟨k, j⟩ := e
    by_cases h1 : k = tag
    · subst h1
      rw [List.filter_cons_of_neg (by simp), ih, lookup_cons_if]
      split <;> rfl
    · rw [List.filter_cons_of_pos (by simpa using h1), lookup_cons_if, lookup_cons_if, ih]
      by_cases h : t = tag
      · subst h; simp [Ne.symm h1]
      · simp [h]

theorem indexErase_pairwise (tag : Word16) {ix : List (Word16 × SlotNo)}
    (h : ix.Pairwise (fun a b => a.1 < b.1)) : (indexErase tag ix).Pairwise (fun a b => a.1 < b.1) :=
  h.filter _

theorem indexInsert_mem {tag : Word16} {i : SlotNo} {ix : List (Word16 × SlotNo)} {e : Word16 × SlotNo}
    (h : e ∈ indexInsert tag i ix) : e = (tag, i) ∨ e ∈ ix := by
  induction ix with
  | nil => simpa [indexInsert] using h
  | cons f ix ih =>
    obtain ⟨k, j⟩ := f
    by_cases h1 : tag < k
    · simpa [indexInsert, h1] using h
    · by_cases h2 : tag = k
      · simp [indexInsert, h2] at h
        rcases h with h | h
        · exact .inl (by simp [h, h2])
        · exact .inr (List.mem_cons_of_mem _ h)
      · simp only [indexInsert, h1, h2, if_false, List.mem_cons] at h
        rcases h with h | h
        · exact .inr (by simp [h])
        · rcases ih h with h | h
          · exact .inl h
          · exact .inr (List.mem_cons_of_mem _ h)

theorem indexInsert_pairwise (tag : Word16) (i : SlotNo) {ix : List (Word16 × SlotNo)}
    (h : ix.Pairwise (fun a b => a.1 < b.1)) : (indexInsert tag i ix).Pairwise (fun a b => a.1 < b.1) := by
  induction ix with
  | nil => simp [indexInsert]
  | cons f ix ih =>
    obtain ⟨k, j⟩ := f
    obtain ⟨hk, ht⟩ := List.pairwise_cons.mp h
    by_cases h1 : tag < k
    · simp only [indexInsert, h1, if_true]
      refine List.pairwise_cons.mpr ⟨fun e he => ?_, h⟩
      rcases List.mem_cons.mp he with rfl | he
      · exact h1
      · exact BitVec.lt_trans h1 (hk e he)
    · by_cases h2 : tag = k
      · subst h2
        simpa [indexInsert] using List.pairwise_cons.mpr ⟨hk, ht⟩
      · simp only [indexInsert, h1, h2, if_false]
        refine List.pairwise_cons.mpr ⟨fun e he => ?_, ih ht⟩
        rcases indexInsert_mem he with rfl | he
        · exact (show k < tag by bv_omega)
        · exact hk e he

end Sys2Proof.Machine
end

