-- ==== Sys2Proof/Laws/Ops.lean ====
section
/-! SUPPORT. For each shared operation on records, counts and queues, one lemma that says everything it does. -/

namespace Sys2Proof.Machine

/-! ### Checks -/

theorem require_of (c : Prop) [Decidable c] (st : Status) (s : State) (next : Applied) (h : c) :
    require c st s next = next := by simp [require, h]

theorem require_not (c : Prop) [Decidable c] (st : Status) (s : State) (next : Applied) (h : ¬ c) :
    require c st s next = refuse st s := by simp [require, h]

/-- Where the writer speaks at the port, admission and port binding pass. -/
theorem admitted_of_speaks {p : PortId} {w : WriterNo} {s : State} (h : s.speaks p w) (next : Applied) :
    admitted p w s next = next := by
  have h' : (s.writer w).binding = some p := h
  simp [admitted, require, h']

/-- A tag that names a record leads to it. -/
theorem find_of_names {s : State} {tag : Word16} {i : SlotNo} {r : Record} (h : s.names tag i r) :
    s.find tag = some (i, r) := by
  obtain ⟨-, hl, hs⟩ := h
  simp [State.find, hl, hs]

theorem onRecord_of_names {s : State} {tag : Word16} {i : SlotNo} {r : Record} (h : s.names tag i r)
    (next : SlotNo → Record → Applied) : onRecord tag s next = next i r := by
  simp [onRecord, find_of_names h]

/-- The tag lookup step answers with the record's slot or refuses. -/
theorem onRecord_none {s : State} {tag : Word16} (h : s.tagIndex.lookup tag = none)
    (next : SlotNo → Record → Applied) : onRecord tag s next = refuse .unknownTag s := by
  simp [onRecord, State.find, h]

/-! ### The Publication Queue -/

theorem State.handUpdate_eq (s : State) (i : SlotNo) (tag : Word16) :
    s.handUpdate i tag =
      if s.link.state = .off then s
      else s.setQueue (handOver s.link.queue { slot := i, tag := tag, kind := .update }) := by
  by_cases h : s.link.state = .off
  · simp [State.handUpdate, h]
  · by_cases hp : s.pendingAt i = true
    · have hq : (s.link.queue.any fun x => x.slot == i) = true := hp
      simp [State.handUpdate, h, hp, handOver, hq, State.setQueue, State.setLink]
    · have hq : (s.link.queue.any fun x => x.slot == i) = false := by simpa [State.pendingAt] using hp
      simp [State.handUpdate, h, hp, handOver, hq]

theorem State.handRetire_eq (s : State) (i : SlotNo) (tag : Word16) :
    s.handRetire i tag = s.setQueue (handOver s.link.queue { slot := i, tag := tag, kind := .retire }) := by
  by_cases hp : s.pendingAt i = true
  · have hq : (s.link.queue.any fun x => x.slot == i) = true := hp
    simp [State.handRetire, hp, handOver, hq]
  · have hq : (s.link.queue.any fun x => x.slot == i) = false := by simpa [State.pendingAt] using hp
    simp [State.handRetire, hp, handOver, hq]

/-! ### Records -/

/-- One event's change of a record: the slot holds the record with the sequence of R11, and the queue takes what R12 hands
on. -/
theorem State.changeRecord_eq (s : State) (i : SlotNo) (old new : Record) (hs : new.sequence = old.sequence)
    (hp : new.publish = old.publish) (ht : new.tag = old.tag) :
    s.changeRecord i old new =
      (s.setSlot i (.holding (old.after new))).setQueue ((s.updateEntry i old new).foldl handOver s.link.queue) := by
  by_cases h : old.live = new.live ∧ old.state = new.state
  · have hd : old.differs new = false := by simp [Record.differs, h.1, h.2]
    have ha : old.after new = new := by simp [Record.after, hd, ← hs]
    simp [State.changeRecord, h, ha, State.updateEntry, hd, State.setQueue, State.setLink, State.setSlot]
  · have hd : old.differs new = true := by
      simp only [Record.differs, Bool.or_eq_true, bne_iff_ne]
      by_cases h1 : old.live = new.live
      · exact .inr fun h2 => h ⟨h1, h2⟩
      · exact .inl h1
    have ha : old.after new = { new with sequence := old.sequence + 1 } := by simp [Record.after, hd]
    by_cases hpub : old.publish = true
    · by_cases ho : s.link.state = .off
      · have hu : s.updateEntry i old new = [] := by simp [State.updateEntry, ho]
        simp only [State.changeRecord, h, if_false, hp, hpub, if_true, State.handUpdate_eq, State.setSlot_link, ho, ha,
          hu, List.foldl_nil]
        rfl
      · simp [State.changeRecord, h, ha, State.updateEntry, hd, hp, hpub, State.handUpdate_eq, ho, ht]
    · simp [State.changeRecord, h, ha, State.updateEntry, hd, hp, hpub, State.setQueue, State.setLink, State.setSlot]

/-- The same, in the statements' terms: the one record becomes as given, and nothing but the table and the queue
changes. -/
theorem State.changeRecord_spec (s : State) (i : SlotNo) (old new : Record) (hs : new.sequence = old.sequence)
    (hp : new.publish = old.publish) (ht : new.tag = old.tag) :
    s.OneRecordBecomes (s.changeRecord i old new) i old new ∧
      s.changeRecord i old new = { s with
        table := (s.changeRecord i old new).table
        link := { s.link with queue := (s.changeRecord i old new).link.queue } } := by
  rw [State.changeRecord_eq s i old new hs hp ht]
  refine ⟨⟨by simp, fun j hj => by simp [Ne.symm hj], by simp⟩, rfl⟩

/-- A change that leaves the live value and the state alone writes the slot and nothing else. -/
theorem State.changeRecord_quiet (s : State) (i : SlotNo) (old new : Record) (hl : old.live = new.live)
    (hst : old.state = new.state) : s.changeRecord i old new = s.setSlot i (.holding new) := by
  simp [State.changeRecord, hl, hst]

/-- The owned counts after a record's owner lost it. -/
theorem State.writer_lowerOwner (s : State) (owner : Option WriterNo) (w : WriterNo) :
    (s.lowerOwner owner).writer w =
      if owner = some w then { s.writer w with ownedCount := (s.writer w).ownedCount - 1 } else s.writer w := by
  cases owner with
  | none => simp [State.lowerOwner]
  | some v =>
    by_cases h : v = w
    · subst h; simp [State.lowerOwner, State.lowerOwned]
    · simp [State.lowerOwner, State.lowerOwned, h]

theorem State.lowerOwner_eq (s : State) (owner : Option WriterNo) :
    s.lowerOwner owner = { s with writers := (s.lowerOwner owner).writers } := by
  cases owner <;> rfl

/-- A retirement, in the statements' terms, with everything it leaves unchanged. -/
theorem State.retireRecord_spec (s : State) (i : SlotNo) (r : Record) :
    s.OneRecordRetired (s.retireRecord i r) i r ∧
      s.retireRecord i r = { s with
        table := (s.retireRecord i r).table, tagIndex := indexErase r.tag s.tagIndex,
        freeCount := (s.retireRecord i r).freeCount, vacatingCount := (s.retireRecord i r).vacatingCount,
        writers := (s.lowerOwner r.owner).writers,
        link := { s.link with queue := (s.retireRecord i r).link.queue } } := by
  have hx : ({ s with tagIndex := indexErase r.tag s.tagIndex } : State).lowerOwner r.owner =
      { s with tagIndex := indexErase r.tag s.tagIndex, writers := (s.lowerOwner r.owner).writers } := by
    cases r.owner <;> rfl
  by_cases h : r.publish = true ∧ s.link.state ≠ .off
  · have hr : s.retireRecord i r =
        ({ s with
          tagIndex := indexErase r.tag s.tagIndex, writers := (s.lowerOwner r.owner).writers,
          table := s.table.write i (.vacating r.tag r.sequence),
          vacatingCount := s.vacatingCount + 1 }).setQueue
          (handOver s.link.queue { slot := i, tag := r.tag, kind := .retire }) := by
      simp only [State.retireRecord, hx, State.vacate, h, ne_eq, not_false_eq_true, and_self, if_true,
        State.handRetire_eq]
      rfl
    rw [hr]
    refine ⟨⟨?_, fun j hj => ?_, fun tag => indexErase_lookup .., fun w => ?_, fun _ => ⟨rfl, rfl⟩,
      fun hn => absurd h hn, ?_⟩, rfl⟩
    · simp [State.slot, State.retiredSlot, h]
    · simp [State.slot, Ne.symm hj]
    · exact State.writer_lowerOwner s r.owner w
    · simp [State.retireEntry, h]
  · have hr : s.retireRecord i r =
        { s with
          tagIndex := indexErase r.tag s.tagIndex, writers := (s.lowerOwner r.owner).writers,
          table := s.table.write i .free, freeCount := s.freeCount + 1 } := by
      simp only [State.retireRecord, hx, State.vacate, h, if_false]
      rfl
    rw [hr]
    refine ⟨⟨?_, fun j hj => ?_, fun tag => indexErase_lookup .., fun w => ?_, fun hn => absurd hn h,
      fun _ => ⟨rfl, rfl⟩, ?_⟩, rfl⟩
    · simp [State.slot, State.retiredSlot, h]
    · simp [State.slot, Ne.symm hj]
    · exact State.writer_lowerOwner s r.owner w
    · simp [State.retireEntry, h]

/-- The rows of the loss-of-owner path are those of R40 and R41. -/
theorem Record.afterLoss_eq (r : Record) (a : Bool) : r.afterLoss a = r.lossRow a := by
  obtain ⟨tag, st, owner, prec, live, staged, fb, lo, up, cl, pub, grp, fr, hp, hd, orp, cause, rf, seq, cd, ht⟩ := r
  cases st <;> cases orp <;> rcases cause with _ | (_ | _) <;> cases a <;>
    simp [Record.afterLoss, Record.lossRow, Record.unowned, Record.endExpiryHold, Record.toFallback]

/-- The rows of a commit are those of R89. -/
theorem Record.committed_eq (r : Record) : r.committed = r.commitRow := by
  obtain ⟨tag, st, owner, prec, live, staged, fb, lo, up, cl, pub, grp, fr, hp, hd, orp, cause, rf, seq, cd, ht⟩ := r
  cases st <;> cases staged <;> simp [Record.committed, Record.commitRow, countdownFor]

/-- A VACATING slot freed is FREE and moves the two counts; any other slot is left alone. -/
theorem State.freeSlot_slot (s : State) (i j : SlotNo) :
    (s.freeSlot i).slot j = if i = j ∧ (s.slot i).isVacating = true then .free else s.slot j := by
  by_cases h : (s.slot i).isVacating = true
  · have hf : (s.freeSlot i).slot j = (s.setSlot i .free).slot j := by simp only [State.freeSlot, h, if_true]; rfl
    rw [hf, State.slot_setSlot]
    simp [h]
  · simp [State.freeSlot, h]

theorem State.freeSlot_eq (s : State) (i : SlotNo) :
    s.freeSlot i = { s with
      table := (s.freeSlot i).table
      freeCount := if (s.slot i).isVacating then s.freeCount + 1 else s.freeCount
      vacatingCount := if (s.slot i).isVacating then s.vacatingCount - 1 else s.vacatingCount } := by
  by_cases h : (s.slot i).isVacating = true <;> simp [State.freeSlot, h, State.setSlot]

/-! ### Notices -/

theorem Port.took_notify (x : Port) (n : Notice) : x.took (x.notify n) n :=
  ⟨fun h => by simp [Port.notify, h], fun h => by simp [Port.notify, h]⟩

theorem State.notifyWriter_port (s : State) (w : WriterNo) (n : Notice) (p : PortId) :
    (s.notifyWriter w n).port p = if (s.writer w).binding = some p then (s.port p).notify n else s.port p := by
  cases hb : (s.writer w).binding with
  | none => simp [State.notifyWriter, hb]
  | some q =>
    by_cases h : q = p
    · subst h; simp [State.notifyWriter, hb, State.notifyPort]
    · simp [State.notifyWriter, hb, State.notifyPort, h]

/-- A notice for a writer reaches its port alone, and nothing else changes. -/
theorem State.notifyWriter_spec (s : State) (w : WriterNo) (n : Notice) :
    s.Notifies (s.notifyWriter w n) w n ∧
      s.notifyWriter w n = { s with portA := (s.notifyWriter w n).portA, portB := (s.notifyWriter w n).portB } := by
  refine ⟨fun p => ?_, ?_⟩
  · rw [State.notifyWriter_port]
    split
    · exact Port.took_notify _ _
    · rfl
  · cases hb : (s.writer w).binding with
    | none => simp [State.notifyWriter, hb]
    | some q => cases q <;> simp [State.notifyWriter, hb, State.notifyPort, State.setPort]

/-- A device notice reaches both ports, and nothing else changes. -/
theorem State.notifyBoth_spec (s : State) (n : Notice) :
    s.NotifiesBoth (s.notifyBoth n) n ∧
      s.notifyBoth n = { s with portA := s.portA.notify n, portB := s.portB.notify n } := by
  refine ⟨fun p => ?_, rfl⟩
  cases p <;> exact Port.took_notify _ _

end Sys2Proof.Machine
end

