-- ==== Sys2Proof/Laws/Bulk.lean ====
section
/-! SUPPORT. Events that act on many slots or groups: what a fold over them does, slot by slot and group by group, once
for all of them; the commit, SAFE entry and release, the freeing of VACATING slots. -/

namespace Sys2Proof.Machine

/-! ### Every record of the table -/

@[simp] theorem Slot.after_holding (f : Record → Record) (r : Record) :
    Slot.after f (.holding r) = .holding (r.after (f r)) := rfl

@[simp] theorem Slot.after_vacating (f : Record → Record) (a b : Word16) :
    Slot.after f (.vacating a b) = .vacating a b := rfl

@[simp] theorem Slot.after_free (f : Record → Record) : Slot.after f .free = .free := rfl

/-- One slot's part in an event that changes records by a function: that slot, the queue, and nothing else. -/
def State.SlotBecomes (s t : State) (i : SlotNo) (f : Record → Record) : Prop :=
  (∀ j, t.slot j =
      if i = j then ((s.slot j).after f) else s.slot j) ∧
    t.link.queue = (s.updateEntryAt f i).foldl handOver s.link.queue ∧
    t = { s with table := t.table, link := { s.link with queue := t.link.queue } }

theorem State.updateEntry_congr {s t : State} (h : t.link.state = s.link.state) (i : SlotNo) (old new : Record) :
    t.updateEntry i old new = s.updateEntry i old new := by
  simp [State.updateEntry, h]

/-- A fold over distinct slots changes the record of each of them and hands the changes on in their order. -/
theorem State.foldl_slotBecomes (f : Record → Record) (g : State → SlotNo → State)
    (hg : ∀ (s : State) (i : SlotNo), s.SlotBecomes (g s i) i f) (l : List SlotNo) (hl : l.Nodup) (s : State) :
    (∀ j, (l.foldl g s).slot j =
      if j ∈ l then ((s.slot j).after f) else s.slot j) ∧
    (l.foldl g s).link.queue =
      (l.flatMap (s.updateEntryAt f)).foldl handOver s.link.queue ∧
    l.foldl g s = { s with
      table := (l.foldl g s).table, link := { s.link with queue := (l.foldl g s).link.queue } } := by
  induction l generalizing s with
  | nil => simp
  | cons i l ih =>
    obtain ⟨hi, hl⟩ := List.nodup_cons.mp hl
    obtain ⟨h1, h2, h3⟩ := hg s i
    obtain ⟨k1, k2, k3⟩ := ih hl (g s i)
    have hst : (g s i).link.state = s.link.state := by rw [h3]
    have hslot : ∀ j, j ∈ l → (g s i).slot j = s.slot j := fun j hj => by
      have hne : i ≠ j := fun e => hi (e ▸ hj)
      rw [h1 j, if_neg hne]
    refine ⟨fun j => ?_, ?_, ?_⟩
    · simp only [List.foldl_cons, k1, List.mem_cons]
      by_cases hj : j ∈ l
      · simp [hj, hslot j hj]
      · by_cases he : j = i
        · subst he; simp [hj, h1]
        · simp [hj, he, h1, Ne.symm he]
    · rw [List.foldl_cons, k2, h2, List.flatMap_cons, List.foldl_append]
      congr 1
      refine List.flatMap_congr fun j hj => ?_
      unfold State.updateEntryAt
      rw [hslot j hj]
      split
      · exact State.updateEntry_congr hst ..
      · rfl
    · have key : ∀ x q, ({ g s i with table := x, link := { (g s i).link with queue := q } } : State) =
          { s with table := x, link := { s.link with queue := q } } := fun x q => by rw [h3]
      rw [List.foldl_cons, k3]
      exact key _ _

theorem allSlots_nodup : allSlots.Nodup := List.nodup_finRange 256

theorem mem_allSlots (i : SlotNo) : i ∈ allSlots := List.mem_finRange i

theorem allGroups_nodup : allGroups.Nodup := List.nodup_finRange 15

theorem mem_allGroups (g : GroupNo) : g ∈ allGroups := List.mem_finRange g

/-- A fold over all slots leaves every record as the function gives. -/
theorem State.everyRecordBecomes_foldl (f : Record → Record) (g : State → SlotNo → State)
    (hg : ∀ (s : State) (i : SlotNo), s.SlotBecomes (g s i) i f) (s : State) :
    s.EveryRecordBecomes (allSlots.foldl g s) f ∧
      allSlots.foldl g s = { s with
        table := (allSlots.foldl g s).table
        link := { s.link with queue := (allSlots.foldl g s).link.queue } } := by
  obtain ⟨h1, h2, h3⟩ := State.foldl_slotBecomes f g hg allSlots allSlots_nodup s
  exact ⟨⟨fun i => by rw [h1 i, if_pos (mem_allSlots i)], h2⟩, h3⟩

theorem Record.after_self (r : Record) : r.after r = r := by
  simp [Record.after, Record.differs]

theorem State.updateEntry_self (s : State) (i : SlotNo) (r : Record) : s.updateEntry i r r = [] := by
  simp [State.updateEntry, Record.differs]

/-- A slot left alone becomes what a function that leaves its record alone gives. -/
theorem State.slotBecomes_refl (s : State) (i : SlotNo) (f : Record → Record)
    (h : ∀ r, s.slot i = .holding r → f r = r) : s.SlotBecomes s i f := by
  refine ⟨fun j => ?_, ?_, rfl⟩
  · by_cases hj : i = j
    · subst hj
      cases hs : s.slot i with
      | holding r => simp [h r hs, Record.after_self]
      | free => simp
      | vacating a b => simp
    · simp [hj]
  · cases hs : s.slot i with
    | holding r => simp [State.updateEntryAt, hs, h r hs, State.updateEntry_self]
    | free => simp [State.updateEntryAt, hs]
    | vacating a b => simp [State.updateEntryAt, hs]

/-- A slot whose record one event changes becomes what the function gives. -/
theorem State.slotBecomes_change (s : State) (i : SlotNo) (f : Record → Record) (r : Record)
    (hr : s.slot i = .holding r) (hs : (f r).sequence = r.sequence) (hp : (f r).publish = r.publish)
    (ht : (f r).tag = r.tag) : s.SlotBecomes (s.changeRecord i r (f r)) i f := by
  obtain ⟨⟨h1, h2, h3⟩, h4⟩ := State.changeRecord_spec s i r (f r) hs hp ht
  refine ⟨fun j => ?_, ?_, h4⟩
  · by_cases hj : i = j
    · subst hj; simp [hr, h1]
    · simp [hj, h2 j (Ne.symm hj)]
  · simp [State.updateEntryAt, hr, h3]

/-! ### The commit (R89, R90) -/

theorem Record.commitRow_sequence (r : Record) : r.commitRow.sequence = r.sequence := by
  unfold Record.commitRow; split <;> rfl

theorem Record.commitRow_publish (r : Record) : r.commitRow.publish = r.publish := by
  unfold Record.commitRow; split <;> rfl

theorem Record.commitRow_tag (r : Record) : r.commitRow.tag = r.tag := by
  unfold Record.commitRow; split <;> rfl

theorem State.commitSlot_spec (target : CommitTarget) (s : State) (i : SlotNo) :
    s.SlotBecomes (s.commitSlot target i) i
      (fun r => if concerns target r.group then r.commitRow else r) := by
  cases hs : s.slot i with
  | free => simpa [State.commitSlot, hs] using s.slotBecomes_refl i _ (by simp [hs])
  | vacating a b => simpa [State.commitSlot, hs] using s.slotBecomes_refl i _ (by simp [hs])
  | holding r =>
    by_cases hc : concerns target r.group = true
    · have h := s.slotBecomes_change i (fun r => if concerns target r.group then r.commitRow else r) r hs
        (by simp [hc, Record.commitRow_sequence]) (by simp [hc, Record.commitRow_publish])
        (by simp [hc, Record.commitRow_tag])
      simp only [hc, if_true] at h
      simpa [State.commitSlot, hs, hc, Record.committed_eq] using h
    · simpa [State.commitSlot, hs, hc] using s.slotBecomes_refl i _ (by simp [hs, hc])

/-- A fold over distinct groups that replaces each group's entry by a function of it. -/
theorem State.foldl_groups (f : GroupNo → GroupEntry → GroupEntry) (g : State → GroupNo → State)
    (hg : ∀ s h, (∀ k, (g s h).groupEntry k = if h = k then f k (s.groupEntry k) else s.groupEntry k) ∧
      g s h = { s with groups := (g s h).groups }) (l : List GroupNo) (hl : l.Nodup) (s : State) :
    (∀ k, (l.foldl g s).groupEntry k = if k ∈ l then f k (s.groupEntry k) else s.groupEntry k) ∧
      l.foldl g s = { s with groups := (l.foldl g s).groups } := by
  induction l generalizing s with
  | nil => simp
  | cons h l ih =>
    obtain ⟨hh, hl⟩ := List.nodup_cons.mp hl
    obtain ⟨h1, h2⟩ := hg s h
    obtain ⟨k1, k2⟩ := ih hl (g s h)
    refine ⟨fun k => ?_, ?_⟩
    · simp only [List.foldl_cons, k1, List.mem_cons]
      by_cases hk : k ∈ l
      · have hne : h ≠ k := fun e => hh (e ▸ hk)
        simp [hk, h1, hne]
      · by_cases he : k = h
        · subst he; simp [hk, h1]
        · simp [hk, he, h1, Ne.symm he]
    · have key : ∀ x, ({ g s h with groups := x } : State) = { s with groups := x } := fun x => by rw [h2]
      rw [List.foldl_cons, k2]
      exact key _

theorem State.allGroups_foldl (f : GroupNo → GroupEntry → GroupEntry) (g : State → GroupNo → State)
    (hg : ∀ s h, (∀ k, (g s h).groupEntry k = if h = k then f k (s.groupEntry k) else s.groupEntry k) ∧
      g s h = { s with groups := (g s h).groups }) (s : State) :
    (∀ k, (allGroups.foldl g s).groupEntry k = f k (s.groupEntry k)) ∧
      allGroups.foldl g s = { s with groups := (allGroups.foldl g s).groups } := by
  obtain ⟨h1, h2⟩ := State.foldl_groups f g hg allGroups allGroups_nodup s
  exact ⟨fun k => by rw [h1 k, if_pos (mem_allGroups k)], h2⟩

/-- A group entry set, in the form the folds over groups take. -/
theorem State.setGroupEntry_step (s : State) (h : GroupNo) (x : GroupEntry) (f : GroupNo → GroupEntry → GroupEntry)
    (hx : x = f h (s.groupEntry h)) :
    (∀ k, (s.setGroupEntry h x).groupEntry k = if h = k then f k (s.groupEntry k) else s.groupEntry k) ∧
      s.setGroupEntry h x = { s with groups := (s.setGroupEntry h x).groups } := by
  refine ⟨fun k => ?_, rfl⟩
  rw [State.groupEntry_setGroupEntry]
  by_cases hk : h = k
  · subst hk; simp [hx]
  · simp [hk]

/-- A commit, in the statements' terms. -/
theorem State.commit_spec (s : State) (target : CommitTarget) : s.Commits (s.commit target) target := by
  have hg := State.allGroups_foldl
    (fun k e => if concerns target k then e.afterCommit else e) (State.commitGroup target)
    (fun s h => by
      by_cases hc : concerns target h = true
      · simpa [State.commitGroup, hc] using
          s.setGroupEntry_step h (s.groupEntry h).afterCommit
            (fun k e => if concerns target k then e.afterCommit else e) (by simp [hc])
      · refine ⟨fun k => ?_, by simp [State.commitGroup, hc]⟩
        by_cases hk : h = k
        · subst hk; simp [State.commitGroup, hc]
        · simp [State.commitGroup, hc, hk]) (allSlots.foldl (State.commitSlot target) s)
  obtain ⟨⟨r1, r2⟩, r3⟩ := State.everyRecordBecomes_foldl
    (fun r => if concerns target r.group then r.commitRow else r) (State.commitSlot target)
    (State.commitSlot_spec target) s
  obtain ⟨g1, g2⟩ := hg
  have hc : s.commit target =
      allGroups.foldl (State.commitGroup target) (allSlots.foldl (State.commitSlot target) s) := rfl
  rw [hc]
  generalize allSlots.foldl (State.commitSlot target) s = Y at *
  generalize allGroups.foldl (State.commitGroup target) Y = X at *
  have ht : X.table = Y.table := by rw [g2]
  have hl : X.link = Y.link := by rw [g2]
  have hr : X.result = s.result := by rw [g2, r3]
  have hg : ∀ g, Y.groupEntry g = s.groupEntry g := fun g => by rw [r3]; rfl
  have key : ∀ x, ({ Y with groups := x } : State) =
      { s with table := Y.table, groups := x, link := { s.link with queue := Y.link.queue } } := fun x => by rw [r3]
  refine ⟨⟨fun i => ?_, ?_⟩, fun g => ?_, ?_⟩
  · rw [← r1 i]; unfold State.slot; rw [ht]
  · rw [hl, r2]
  · rw [g1 g, hg g]; rfl
  · rw [ht, hl, hr]
    exact g2.trans (key _)

/-- The changed count of a commit is the number of records its table marks. -/
theorem State.changedCount_eq (s : State) (target : CommitTarget) : s.changedCount target = s.changedBy target := by
  unfold State.changedCount State.changedBy
  congr 1
  refine List.filter_congr fun i _ => ?_
  cases hs : s.slot i with
  | free => simp [Slot.record?]
  | vacating a b => simp [Slot.record?]
  | holding r =>
    simp [Slot.record?, Record.changedByCommit, Record.differs, Record.committed_eq, Bool.or_comm, bne, eq_comm,
      Bool.beq_eq_decide_eq]

/-! ### SAFE entry and release (R117, R120, R97) -/

theorem State.holdForSafe_spec (s : State) (i : SlotNo) :
    s.SlotBecomes (s.holdForSafe i) i (fun r => if r.state = .live then r.heldForSafe else r) := by
  cases hs : s.slot i with
  | free => simpa [State.holdForSafe, hs] using s.slotBecomes_refl i _ (by simp [hs])
  | vacating a b => simpa [State.holdForSafe, hs] using s.slotBecomes_refl i _ (by simp [hs])
  | holding r =>
    by_cases hc : r.state = .live
    · have h := s.slotBecomes_change i (fun r => if r.state = .live then r.heldForSafe else r) r hs
        (by simp [hc, Record.heldForSafe]) (by simp [hc, Record.heldForSafe]) (by simp [hc, Record.heldForSafe])
      simp only [hc, if_true] at h
      simpa [State.holdForSafe, hs, hc] using h
    · simpa [State.holdForSafe, hs, hc] using s.slotBecomes_refl i _ (by simp [hs, hc])

theorem State.releaseFromSafe_spec (s : State) (i : SlotNo) :
    s.SlotBecomes (s.releaseFromSafe i) i
      (fun r => if r.state = .held ∧ r.holdCause = some .safe then r.releasedFromSafe else r) := by
  cases hs : s.slot i with
  | free => simpa [State.releaseFromSafe, hs] using s.slotBecomes_refl i _ (by simp [hs])
  | vacating a b => simpa [State.releaseFromSafe, hs] using s.slotBecomes_refl i _ (by simp [hs])
  | holding r =>
    by_cases hc : r.state = .held ∧ r.holdCause = some .safe
    · have h := s.slotBecomes_change i
        (fun r => if r.state = .held ∧ r.holdCause = some .safe then r.releasedFromSafe else r) r hs
        (by simp [hc, Record.releasedFromSafe]) (by simp [hc, Record.releasedFromSafe])
        (by simp [hc, Record.releasedFromSafe])
      simp only [hc, and_self, if_true] at h
      simpa [State.releaseFromSafe, hs, hc] using h
    · have h := s.slotBecomes_refl i
        (fun r => if r.state = .held ∧ r.holdCause = some .safe then r.releasedFromSafe else r)
        (fun r' hr' => by rw [hs] at hr'; cases hr'; exact if_neg hc)
      simpa [State.releaseFromSafe, hs, hc] using h

theorem State.stopCycles_spec (s : State) :
    (∀ g, (allGroups.foldl State.stopCycle s).groupEntry g = { s.groupEntry g with timer := .stopped }) ∧
      allGroups.foldl State.stopCycle s = { s with groups := (allGroups.foldl State.stopCycle s).groups } :=
  State.allGroups_foldl (fun _ e => { e with timer := .stopped }) State.stopCycle
    (fun s h => s.setGroupEntry_step h { s.groupEntry h with timer := .stopped }
      (fun _ e => { e with timer := .stopped }) rfl) s

theorem State.startCycles_spec (s : State) :
    (∀ g, (allGroups.foldl State.startCycle s).groupEntry g =
      if (s.groupEntry g).period = 0 then s.groupEntry g
      else { s.groupEntry g with timer := .running (ms (s.groupEntry g).period.toNat) }) ∧
      allGroups.foldl State.startCycle s = { s with groups := (allGroups.foldl State.startCycle s).groups } :=
  State.allGroups_foldl
    (fun _ e => if e.period = 0 then e else { e with timer := .running (ms e.period.toNat) }) State.startCycle
    (fun s h => by
      by_cases hp : (s.groupEntry h).period = 0
      · refine ⟨fun k => ?_, by simp [State.startCycle, hp]⟩
        by_cases hk : h = k
        · subst hk; simp [State.startCycle, hp]
        · simp [State.startCycle, hp, hk]
      · have he : s.startCycle h =
            s.setGroupEntry h { s.groupEntry h with timer := .running (ms (s.groupEntry h).period.toNat) } := if_neg hp
        rw [he]
        exact s.setGroupEntry_step h _
          (fun _ e => if e.period = 0 then e else { e with timer := .running (ms e.period.toNat) })
          (if_neg hp).symm) s

/-! ### The freeing of VACATING slots (R15) -/

/-- A fold that frees distinct slots: those that were VACATING are FREE, and the counts move by their number. -/
theorem State.foldl_freeSlot (l : List SlotNo) (hl : l.Nodup) (s : State) :
    (∀ j, (l.foldl State.freeSlot s).slot j =
      if j ∈ l ∧ (s.slot j).isVacating = true then .free else s.slot j) ∧
      l.foldl State.freeSlot s = { s with
        table := (l.foldl State.freeSlot s).table
        freeCount := s.freeCount + (l.filter (fun i => (s.slot i).isVacating)).length
        vacatingCount := s.vacatingCount - (l.filter (fun i => (s.slot i).isVacating)).length } := by
  induction l generalizing s with
  | nil => simp
  | cons i l ih =>
    obtain ⟨hi, hl⟩ := List.nodup_cons.mp hl
    obtain ⟨k1, k2⟩ := ih hl (s.freeSlot i)
    have h1 := State.freeSlot_slot s i
    have h2 := State.freeSlot_eq s i
    have hslot : ∀ j, j ∈ l → (s.freeSlot i).slot j = s.slot j := fun j hj => by
      have hne : i ≠ j := fun e => hi (e ▸ hj)
      rw [h1 j, if_neg (fun h => hne h.1)]
    have hf : l.filter (fun j => ((s.freeSlot i).slot j).isVacating) = l.filter (fun j => (s.slot j).isVacating) :=
      List.filter_congr fun j hj => by rw [hslot j hj]
    refine ⟨fun j => ?_, ?_⟩
    · simp only [List.foldl_cons, k1, List.mem_cons]
      by_cases hj : j ∈ l
      · simp [hj, hslot j hj]
      · by_cases he : j = i
        · subst he; simp [hj, h1]
        · simp [hj, he, h1, Ne.symm he]
    · have key : ∀ x a b, ({ s.freeSlot i with table := x, freeCount := a, vacatingCount := b } : State) =
          { s with table := x, freeCount := a, vacatingCount := b } := fun x a b => by rw [h2]
      have hfree : (s.freeSlot i).freeCount = if (s.slot i).isVacating then s.freeCount + 1 else s.freeCount := by
        rw [h2]
      have hvac : (s.freeSlot i).vacatingCount =
          if (s.slot i).isVacating then s.vacatingCount - 1 else s.vacatingCount := by rw [h2]
      rw [List.foldl_cons, k2, hf, key, hfree, hvac]
      by_cases hv : (s.slot i).isVacating = true
      · simp [hv, Nat.sub_sub, Nat.add_assoc, Nat.add_comm 1]
      · simp [hv]

end Sys2Proof.Machine
end

