-- ==== Sys2Proof/Laws/Frames.lean ====
section
/-! SUPPORT. Bytes and their fields: a field written is read back, slices of entries of one length, the bits of a byte,
and the level of TXP. -/

namespace Sys2Proof.Machine

/-! ### Fields -/

/-- The two bytes of a 16-bit field make the field again. -/
theorem word16_bytes16 (x : Word16) : word16 (x.extractLsb' 8 8) (x.extractLsb' 0 8) = x := by
  apply BitVec.eq_of_getLsbD_eq
  intro i hi
  unfold word16
  rw [BitVec.getLsbD_append, BitVec.getLsbD_extractLsb', BitVec.getLsbD_extractLsb']
  by_cases h : i < 8
  · simp [h]
  · simp [h, show i - 8 < 8 by omega, show 8 + (i - 8) = i by omega]

/-- The four bytes of a 32-bit field make the field again. -/
theorem word32_bytes32 (x : Value) :
    word32 (x.extractLsb' 24 8) (x.extractLsb' 16 8) (x.extractLsb' 8 8) (x.extractLsb' 0 8) = x := by
  apply BitVec.eq_of_getLsbD_eq
  intro i hi
  unfold word32
  simp only [BitVec.getLsbD_append, BitVec.getLsbD_extractLsb']
  by_cases h8 : i < 8
  · simp [h8, show i < 16 by omega]
  · by_cases h16 : i < 16
    · simp [h8, h16, show i - 8 < 8 by omega, show 8 + (i - 8) = i by omega]
    · by_cases h24 : i - 16 < 8
      · simp [h16, h24, show 16 + (i - 16) = i by omega]
      · simp [h16, h24, show i - 16 - 8 < 8 by omega, show 24 + (i - 16 - 8) = i by omega]

/-- The bits of a byte, most significant first, make the byte again. -/
theorem byteOfBits_msbFirst (b : Byte) :
    byteOfBits (b.getLsbD 7) (b.getLsbD 6) (b.getLsbD 5) (b.getLsbD 4) (b.getLsbD 3) (b.getLsbD 2) (b.getLsbD 1)
      (b.getLsbD 0) = b := by
  revert b
  decide

/-! ### Entries of one length -/

theorem length_flatMap_of_length {α : Type} {f : α → List Byte} {m : Nat} (h : ∀ a, (f a).length = m) (l : List α) :
    (l.flatMap f).length = m * l.length := by
  induction l with
  | nil => simp
  | cons a l ih =>
    rw [List.flatMap_cons, List.length_append, ih, h, List.length_cons, Nat.mul_add, Nat.mul_one, Nat.add_comm]

/-- Entry `k` stands at `k` times the length of an entry. -/
theorem take_drop_flatMap {α : Type} {f : α → List Byte} {m : Nat} (h : ∀ a, (f a).length = m) {l : List α} {k : Nat}
    {a : α} (hk : l[k]? = some a) : ((l.flatMap f).drop (m * k)).take m = f a := by
  induction l generalizing k with
  | nil => simp at hk
  | cons b l ih =>
    cases k with
    | zero =>
      obtain rfl : b = a := by simpa using hk
      simp [h]
    | succ k =>
      rw [List.flatMap_cons, Nat.mul_add, List.drop_append, List.drop_eq_nil_of_le (by rw [h]; omega), h]
      simp [ih (k := k) (by simpa using hk)]

/-- The bytes of results fill what `resultsLength` counts. -/
theorem length_resultBytes (l : List OpResult) : (l.flatMap OpResult.bytes).length = resultsLength l := by
  induction l with
  | nil => rfl
  | cons r l ih =>
    simp [resultsLength, OpResult.bytes] at ih ⊢
    omega

/-! ### TXP and SDO -/

theorem PubFrame.length_txpBits (f : PubFrame) : f.txpBits.length = 140 := by
  simp [PubFrame.txpBits, PubFrame.bytes, PubFrame.body, withCrc, bytes16, bytes32, lineBits]

/-- With no transmission TXP is high. -/
@[simp] theorem Link.txp_stopped (l : Link) (h : l.transmission = .stopped) : l.txp = true := by
  unfold Link.txp
  rw [h]
  cases l.inFlight <;> rfl

/-- With no frame in flight TXP is high. -/
@[simp] theorem Link.txp_noFrame (l : Link) (h : l.inFlight = none) : l.txp = true := by
  unfold Link.txp
  rw [h]

/-- After the code SDO is high outside a READOUT. -/
theorem Transaction.sdoByte_fill (t : Transaction) (h : ∀ ofStored bytes, t ≠ .readout ofStored bytes) (n : Nat) :
    t.sdoByte n = 0xFF := by
  cases t <;> first | rfl | exact absurd rfl (h _ _)

end Sys2Proof.Machine
end

