-- ==== Sys2Proof/Laws/Link.lean ====
section
/-! SUPPORT. For each shared operation of the link and of the scans, one lemma that says everything it does. -/

namespace Sys2Proof.Machine

/-! ### The frame in flight (R132, R133, R136) -/

theorem State.returnedQueue_eq (s : State) (e : Entry) : s.returnedQueue e = s.queueWithReturned e := by
  have key : ∀ (pending named : Bool) (kind : EntryKind) (q : List Entry),
      (if pending = true then q else if kind = .update ∧ named = false then q else e :: q) =
        if pending = true then q else if kind = .retire ∨ named = true then e :: q else q := by
    intro pending named kind q
    cases pending <;> cases named <;> cases kind <;> rfl
  exact key (s.link.queue.any fun x => x.slot == e.slot) ((s.slot e.slot).publishes e.tag) e.kind s.link.queue

/-- The completion of the frame in flight. -/
theorem State.completeFrame_spec (s : State) (f : InFlight) : s.FrameCompletes (s.completeFrame f) f := by
  by_cases h : f.entry.kind = .retire ∧ s.pendingAt f.entry.slot = false
  · have hc : s.completeFrame f = (s.freeSlot f.entry.slot).setLink { s.link with
        state := .idle, inFlight := none, noted := false, ackTimer := .stopped, transmission := .stopped } := by
      have hl : (s.freeSlot f.entry.slot).link = s.link := by rw [State.freeSlot_eq]
      simp only [State.completeFrame, h, and_self, if_true, hl]
    rw [hc]
    refine ⟨fun hk => absurd (hk ▸ h.1) (by simp), fun _ hv _ => ⟨fun i => ?_, ?_, ?_⟩, ?_⟩
    · have := State.freeSlot_slot s f.entry.slot i
      simp only [hv, and_true] at this
      simpa [eq_comm] using this
    · have : (s.freeSlot f.entry.slot).freeCount = s.freeCount + 1 := by rw [State.freeSlot_eq]; simp [hv]
      simpa using this
    · have : (s.freeSlot f.entry.slot).vacatingCount = s.vacatingCount - 1 := by rw [State.freeSlot_eq]; simp [hv]
      simpa using this
    · have key : ∀ x : Link, (s.freeSlot f.entry.slot).setLink x = { s with
          table := (s.freeSlot f.entry.slot).table, freeCount := (s.freeSlot f.entry.slot).freeCount,
          vacatingCount := (s.freeSlot f.entry.slot).vacatingCount, link := x } := fun x => by
        generalize hX : s.freeSlot f.entry.slot = X
        have := State.freeSlot_eq s f.entry.slot
        rw [hX] at this
        rw [this]; rfl
      exact key _
  · have hc : s.completeFrame f = s.setLink { s.link with
        state := .idle, inFlight := none, noted := false, ackTimer := .stopped, transmission := .stopped } := by
      simp only [State.completeFrame, h, if_false]
    rw [hc]
    exact ⟨fun _ => ⟨rfl, rfl, rfl⟩, fun h1 _ h2 => absurd ⟨h1, h2⟩ h, rfl⟩

/-- A failed transmission. -/
theorem State.failTransmission_spec (s : State) (f : InFlight) :
    s.TransmissionFails (s.failTransmission f) f := by
  refine ⟨fun h => ?_, fun h => ?_⟩
  · simp only [State.failTransmission, h, if_true]
    rfl
  · have hf : s.failTransmission f = s.goDown f := if_neg (Nat.not_lt.mpr h)
    rw [hf]
    unfold State.goDown
    rw [State.returnedQueue_eq]
    refine ⟨fun p => ?_, rfl⟩
    cases p <;> exact Port.took_notify _ _

/-! ### Scans (R167, R169) -/

theorem Record.shortView_eq (i : SlotNo) (r : Record) : r.shortView i = viewFor i r := rfl

/-- The matches of a filter are the views of the records it admits. -/
theorem State.matchesFrom_eq (s : State) (f : Filter) (next : Nat) : s.matchesFrom f next = s.viewsFrom next f.admits := by
  unfold State.matchesFrom State.viewsFrom
  generalize allSlots = l
  induction l with
  | nil => rfl
  | cons i l ih =>
    rw [List.flatMap_cons, ← ih]
    by_cases hn : next ≤ i.val
    · cases hs : s.slot i with
      | free => simp [hn, State.viewOf, hs]
      | vacating a b => simp [hn, State.viewOf, hs]
      | holding r => cases hf : f.admits r <;> simp [hn, State.viewOf, hs, hf, Record.shortView_eq]
    · cases hs : s.slot i <;> simp [hn]

/-- A walk of a port's cursor. -/
theorem State.walk_spec (s : State) (p : PortId) (c : Cursor) :
    s.Walks (answered (walk p c s)) p c.writer c.filter c.nextSlot c.filter.admits := by
  refine ⟨nextAfter (s.viewsFrom c.nextSlot c.filter.admits), fun v hv => ?_, fun hl => ?_, ?_⟩
  · simp [nextAfter, hv]
  · have : (s.viewsFrom c.nextSlot c.filter.admits)[7]? = none := by
      simpa [List.getElem?_eq_none_iff] using Nat.le_of_lt_succ hl
    simp [nextAfter, this]
  · simp only [answered, walk, accept, State.matchesFrom_eq, State.withResult]
    rfl

end Sys2Proof.Machine
end

