-- ==== Sys2Proof/Laws/Owners.lean ====
section
/-! SUPPORT. Loss of owner, the dismissal of a writer, the retirement of every record: for each, one lemma that says
everything it does. -/

namespace Sys2Proof.Machine

/-! ### Loss of owner (R39) -/

theorem Record.lossRow_sequence (r : Record) (a : Bool) : (r.lossRow a).sequence = r.sequence := by
  unfold Record.lossRow; dsimp only; split <;> (try split) <;> rfl

theorem Record.lossRow_publish (r : Record) (a : Bool) : (r.lossRow a).publish = r.publish := by
  unfold Record.lossRow; dsimp only; split <;> (try split) <;> rfl

theorem Record.lossRow_tag (r : Record) (a : Bool) : (r.lossRow a).tag = r.tag := by
  unfold Record.lossRow; dsimp only; split <;> (try split) <;> rfl

/-- Under orphan policy RETIRE a loss of owner is a retirement. -/
theorem State.loseOwner_retire (s : State) (i : SlotNo) (r : Record) (h : r.orphan = .retire) :
    s.loseOwner i r = s.retireRecord i r := by
  simp [State.loseOwner, h]

/-- Under KEEP or FALLBACK it takes the record through its row, and lowers the owner's count. -/
theorem State.loseOwner_keep (s : State) (i : SlotNo) (r : Record) (h : r.orphan ≠ .retire) :
    s.OneRecordBecomes (s.loseOwner i r) i r (r.lossRow s.safeActive) ∧
      s.loseOwner i r = { s with
        table := (s.loseOwner i r).table, writers := (s.lowerOwner r.owner).writers,
        link := { s.link with queue := (s.loseOwner i r).link.queue } } := by
  have e : s.loseOwner i r = (s.lowerOwner r.owner).changeRecord i r (r.lossRow s.safeActive) := by
    simp [State.loseOwner, h, Record.afterLoss_eq]
  rw [e]
  have hx := State.lowerOwner_eq s r.owner
  obtain ⟨⟨h1, h2, h3⟩, h4⟩ := State.changeRecord_spec (s.lowerOwner r.owner) i r (r.lossRow s.safeActive)
    (r.lossRow_sequence _) (r.lossRow_publish _) (r.lossRow_tag _)
  generalize (s.lowerOwner r.owner).changeRecord i r (r.lossRow s.safeActive) = X at *
  generalize s.lowerOwner r.owner = Y at *
  have ht : Y.table = s.table := by rw [hx]
  have hl : Y.link = s.link := by rw [hx]
  refine ⟨⟨h1, fun j hj => ?_, ?_⟩, ?_⟩
  · rw [h2 j hj]; unfold State.slot; rw [ht]
  · rw [h3, hl]
    unfold State.updateEntry
    rw [hl]
  · have key : ∀ x q, ({ Y with table := x, link := { Y.link with queue := q } } : State) =
        { s with table := x, writers := Y.writers, link := { s.link with queue := q } } := fun x q => by rw [hx]
    rw [key] at h4
    exact h4

/-! ### Records dropped from a list of slots -/

/-- What a slot holds after its record was dropped: retired where `gone`, otherwise changed to its row. -/
def State.droppedSlot (s : State) (gone : Record → Bool) (row : Record → Record) (i : SlotNo) : Slot :=
  match s.slot i with
  | .holding r => if gone r then s.retiredSlot r else .holding (r.after (row r))
  | x => x

/-- What dropping a slot's record hands on. -/
def State.droppedEntry (s : State) (gone : Record → Bool) (row : Record → Record) (i : SlotNo) : List Entry :=
  match s.slot i with
  | .holding r => if gone r then s.retireEntry i r else s.updateEntry i r (row r)
  | _ => []

/-- The slot's record is retired. -/
def State.goneAt (s : State) (gone : Record → Bool) (i : SlotNo) : Bool :=
  match s.slot i with
  | .holding r => gone r
  | _ => false

/-- The slot's record is retired and the slot becomes VACATING. -/
def State.vacatesAt (s : State) (gone : Record → Bool) (i : SlotNo) : Bool :=
  match s.slot i with
  | .holding r => gone r && r.publish && s.link.state != .off
  | _ => false

/-- The records of some slots are dropped, each from its owner, in the order of the list, and nothing else changes. -/
structure State.Drops (s t : State) (l : List SlotNo) (gone : Record → Bool) (row : Record → Record) : Prop where
  slot : ∀ j, t.slot j = if j ∈ l then s.droppedSlot gone row j else s.slot j
  queue : t.link.queue = (l.flatMap (s.droppedEntry gone row)).foldl handOver s.link.queue
  index : ∀ tag, t.tagIndex.lookup tag =
    if l.any (fun i => s.goneAt gone i && (s.slot i).tagged tag) then none else s.tagIndex.lookup tag
  free : t.freeCount + (l.filter (s.vacatesAt gone)).length = s.freeCount + (l.filter (s.goneAt gone)).length
  vacating : t.vacatingCount = s.vacatingCount + (l.filter (s.vacatesAt gone)).length
  writers : ∀ w, t.writer w =
    { s.writer w with ownedCount := (s.writer w).ownedCount - (l.filter (s.ownedBy w)).length }
  rest : t = { s with
    table := t.table, tagIndex := t.tagIndex, freeCount := t.freeCount, vacatingCount := t.vacatingCount,
    writers := t.writers, link := { s.link with queue := t.link.queue } }

theorem State.drops_nil (s : State) (gone : Record → Bool) (row : Record → Record) : s.Drops s [] gone row :=
  ⟨by simp, by simp, by simp, by simp, by simp, by simp, rfl⟩

/-- A slot without a record drops nothing. -/
theorem State.drops_none (s : State) (i : SlotNo) (gone : Record → Bool) (row : Record → Record)
    (h : (s.slot i).record? = none) : s.Drops s [i] gone row := by
  cases hs : s.slot i with
  | holding r => simp [hs, Slot.record?] at h
  | free =>
    refine ⟨fun j => ?_, ?_, ?_, ?_, ?_, ?_, rfl⟩
    · by_cases hj : j = i
      · subst hj; simp [State.droppedSlot, hs]
      · simp [hj]
    all_goals simp [State.droppedEntry, State.goneAt, State.vacatesAt, State.ownedBy, hs]
  | vacating a b =>
    refine ⟨fun j => ?_, ?_, ?_, ?_, ?_, ?_, rfl⟩
    · by_cases hj : j = i
      · subst hj; simp [State.droppedSlot, hs]
      · simp [hj]
    all_goals simp [State.droppedEntry, State.goneAt, State.vacatesAt, State.ownedBy, hs]

/-- A retirement drops its slot's record. -/
theorem State.drops_retire (s : State) (i : SlotNo) (r : Record) (gone : Record → Bool) (row : Record → Record)
    (hs : s.slot i = .holding r) (hg : gone r = true) : s.Drops (s.retireRecord i r) [i] gone row := by
  obtain ⟨⟨h1, h2, h3, h4, h5, h6, h7⟩, h8⟩ := State.retireRecord_spec s i r
  refine ⟨fun j => ?_, ?_, fun tag => ?_, ?_, ?_, fun w => ?_, ?_⟩
  · by_cases hj : j = i
    · subst hj; simp [State.droppedSlot, hs, hg, h1]
    · simp [hj, h2 j hj]
  · simp [State.droppedEntry, hs, hg, h7]
  · rw [h3]
    by_cases ht : tag = r.tag
    · subst ht; simp [State.goneAt, hs, hg, Slot.tagged]
    · simp [State.goneAt, hs, hg, Slot.tagged, ht, Ne.symm ht]
  · by_cases hw : r.publish = true ∧ s.link.state ≠ .off
    · simp [State.goneAt, State.vacatesAt, hs, hg, hw, (h5 hw).1]
    · have hn : (r.publish && s.link.state != .off) = false := by
        rw [Bool.eq_false_iff]
        simpa using hw
      simp [State.goneAt, State.vacatesAt, hs, hg, hn, (h6 hw).1]
  · by_cases hw : r.publish = true ∧ s.link.state ≠ .off
    · simp [State.vacatesAt, hs, hg, hw, (h5 hw).2]
    · have hn : (r.publish && s.link.state != .off) = false := by
        rw [Bool.eq_false_iff]
        simpa using hw
      simp [State.vacatesAt, hs, hg, hn, (h6 hw).2]
  · rw [h4 w]
    by_cases ho : r.owner = some w <;> simp [State.ownedBy, hs, ho]
  · generalize s.retireRecord i r = X at *
    rw [h8]

/-- A change that takes the record from its owner drops it. -/
theorem State.drops_keep (s : State) (i : SlotNo) (r : Record) (hs : s.slot i = .holding r) (h : r.orphan ≠ .retire) :
    s.Drops (s.loseOwner i r) [i] (fun r => r.orphan == .retire) (fun r => r.lossRow s.safeActive) := by
  obtain ⟨⟨h1, h2, h3⟩, h4⟩ := State.loseOwner_keep s i r h
  have hg : (r.orphan == OrphanPolicy.retire) = false := by simpa using h
  generalize s.loseOwner i r = X at *
  have hi : X.tagIndex = s.tagIndex := by rw [h4]
  have hf : X.freeCount = s.freeCount := by rw [h4]
  have hv : X.vacatingCount = s.vacatingCount := by rw [h4]
  refine ⟨fun j => ?_, ?_, fun tag => ?_, ?_, ?_, fun w => ?_, ?_⟩
  · by_cases hj : j = i
    · subst hj; simp [State.droppedSlot, hs, h, h1]
    · simp [hj, h2 j hj]
  · simp [State.droppedEntry, hs, h, h3]
  · simp [State.goneAt, hs, hg, hi]
  · simp [State.goneAt, State.vacatesAt, hs, hg, hf]
  · simp [State.vacatesAt, hs, hg, hv]
  · have : X.writer w = (s.lowerOwner r.owner).writer w := by rw [h4]; rfl
    rw [this, State.writer_lowerOwner]
    by_cases ho : r.owner = some w <;> simp [State.ownedBy, hs, ho]
  · rw [h4]

/-- The loss-of-owner path of one slot. -/
theorem State.loseOwnerAt_drops (s : State) (i : SlotNo) :
    s.Drops (s.loseOwnerAt i) [i] (fun r => r.orphan == .retire) (fun r => r.lossRow s.safeActive) := by
  cases hs : s.slot i with
  | free => simpa [State.loseOwnerAt, hs] using s.drops_none i _ _ (by simp [hs, Slot.record?])
  | vacating a b => simpa [State.loseOwnerAt, hs] using s.drops_none i _ _ (by simp [hs, Slot.record?])
  | holding r =>
    have e : s.loseOwnerAt i = s.loseOwner i r := by simp [State.loseOwnerAt, hs]
    rw [e]
    by_cases h : r.orphan = .retire
    · rw [State.loseOwner_retire s i r h]
      exact s.drops_retire i r _ _ hs (by simp [h])
    · exact s.drops_keep i r hs h

/-- The retirement of one slot's record. -/
theorem State.retireSlot_drops (s : State) (i : SlotNo) (row : Record → Record) :
    s.Drops (s.retireSlot i) [i] (fun _ => true) row := by
  cases hs : s.slot i with
  | free => simpa [State.retireSlot, hs] using s.drops_none i _ _ (by simp [hs, Slot.record?])
  | vacating a b => simpa [State.retireSlot, hs] using s.drops_none i _ _ (by simp [hs, Slot.record?])
  | holding r =>
    have e : s.retireSlot i = s.retireRecord i r := by simp [State.retireSlot, hs]
    rw [e]
    exact s.drops_retire i r _ _ hs rfl

/-- Dropping the records of distinct slots one after another drops the records of all of them. -/
theorem State.drops_cons {s t u : State} {i : SlotNo} {l : List SlotNo} {gone : Record → Bool}
    {row : Record → Record} (hi : i ∉ l) (h : s.Drops t [i] gone row) (k : t.Drops u l gone row) :
    s.Drops u (i :: l) gone row := by
  have hst : t.link.state = s.link.state := by rw [h.rest]
  have hslot : ∀ j, j ∈ l → t.slot j = s.slot j := fun j hj => by
    have hne : j ≠ i := fun e => hi (e ▸ hj)
    simpa [hne] using h.slot j
  have hret : ∀ r, t.retiredSlot r = s.retiredSlot r := fun r => by simp [State.retiredSlot, hst]
  have hdrop : ∀ j, j ∈ l → t.droppedSlot gone row j = s.droppedSlot gone row j := fun j hj => by
    unfold State.droppedSlot; rw [hslot j hj]
    cases s.slot j <;> simp [hret]
  have hentry : ∀ j, j ∈ l → t.droppedEntry gone row j = s.droppedEntry gone row j := fun j hj => by
    unfold State.droppedEntry; rw [hslot j hj]
    cases s.slot j <;> simp [State.retireEntry, State.updateEntry, hst]
  have hgone : ∀ j, j ∈ l → t.goneAt gone j = s.goneAt gone j := fun j hj => by
    unfold State.goneAt; rw [hslot j hj]
  have hvac : ∀ j, j ∈ l → t.vacatesAt gone j = s.vacatesAt gone j := fun j hj => by
    unfold State.vacatesAt; rw [hslot j hj, hst]
  have hown : ∀ w j, j ∈ l → t.ownedBy w j = s.ownedBy w j := fun w j hj => by
    unfold State.ownedBy; rw [hslot j hj]
  have fgone : l.filter (t.goneAt gone) = l.filter (s.goneAt gone) := List.filter_congr fun j hj => hgone j hj
  have fvac : l.filter (t.vacatesAt gone) = l.filter (s.vacatesAt gone) := List.filter_congr fun j hj => hvac j hj
  have fown : ∀ w, l.filter (t.ownedBy w) = l.filter (s.ownedBy w) := fun w =>
    List.filter_congr fun j hj => hown w j hj
  refine ⟨fun j => ?_, ?_, fun tag => ?_, ?_, ?_, fun w => ?_, ?_⟩
  · rw [k.slot j]
    by_cases hj : j ∈ l
    · simp [hj, hdrop j hj]
    · rw [if_neg hj, h.slot j]
      by_cases he : j = i <;> simp [he, hj]
  · rw [k.queue, h.queue, List.flatMap_cons, List.foldl_append]
    rw [List.flatMap_congr hentry]
    simp
  · have e : l.any (fun j => t.goneAt gone j && (t.slot j).tagged tag) =
        l.any (fun j => s.goneAt gone j && (s.slot j).tagged tag) := by
      rw [Bool.eq_iff_iff, List.any_eq_true, List.any_eq_true]
      constructor <;> rintro ⟨j, hj, hx⟩ <;> refine ⟨j, hj, ?_⟩
      · rwa [hgone j hj, hslot j hj] at hx
      · rwa [hgone j hj, hslot j hj]
    rw [k.index, h.index, e, List.any_cons, List.any_cons, List.any_nil, Bool.or_false]
    generalize l.any (fun j => s.goneAt gone j && (s.slot j).tagged tag) = a
    generalize (s.goneAt gone i && (s.slot i).tagged tag) = b
    cases a <;> cases b <;> rfl
  · have h1 := h.free
    have h2 := k.free
    rw [fgone, fvac] at h2
    simp only [List.filter_cons, List.filter_nil] at h1 ⊢
    by_cases a : s.vacatesAt gone i = true <;> by_cases b : s.goneAt gone i = true <;> simp [a, b] at h1 ⊢ <;> omega
  · have h1 := h.vacating
    have h2 := k.vacating
    rw [fvac] at h2
    simp only [List.filter_cons, List.filter_nil] at h1 ⊢
    by_cases a : s.vacatesAt gone i = true <;> simp [a] at h1 ⊢ <;> omega
  · rw [k.writers w, h.writers w, fown w]
    by_cases a : s.ownedBy w i = true <;> simp [a, Nat.sub_sub, Nat.add_comm 1]
  · have key : ∀ a b c d e q, ({ t with
        table := a, tagIndex := b, freeCount := c, vacatingCount := d, writers := e,
        link := { t.link with queue := q } } : State) =
        { s with
          table := a, tagIndex := b, freeCount := c, vacatingCount := d, writers := e,
          link := { s.link with queue := q } } := fun a b c d e q => by rw [h.rest]
    exact k.rest.trans (key _ _ _ _ _ _)

/-- A fold that drops the record of each of a list of distinct slots. `inv` is what the steps keep and lean on. -/
theorem State.drops_foldl {gone : Record → Bool} {row : Record → Record} (g : State → SlotNo → State)
    (inv : State → Prop) (hg : ∀ s i, inv s → s.Drops (g s i) [i] gone row ∧ inv (g s i)) (l : List SlotNo)
    (hl : l.Nodup) (s : State) (hs : inv s) : s.Drops (l.foldl g s) l gone row := by
  induction l generalizing s with
  | nil => exact s.drops_nil gone row
  | cons i l ih =>
    obtain ⟨hi, hl⟩ := List.nodup_cons.mp hl
    obtain ⟨h1, h2⟩ := hg s i hs
    exact State.drops_cons hi h1 (ih hl (g s i) h2)

/-- A dismissal's losses of owner. -/
theorem State.loseOwners_drops (s : State) (l : List SlotNo) (hl : l.Nodup) :
    s.Drops (l.foldl State.loseOwnerAt s) l (fun r => r.orphan == .retire) (fun r => r.lossRow s.safeActive) :=
  State.drops_foldl State.loseOwnerAt (fun t => t.safeActive = s.safeActive)
    (fun t i ht => by
      have h := t.loseOwnerAt_drops i
      rw [ht] at h
      refine ⟨h, ?_⟩
      rw [← ht, h.rest]; rfl) l hl s rfl

/-- The retirements of a CLEAR_TABLE. -/
theorem State.retireSlots_drops (s : State) (row : Record → Record) (l : List SlotNo) (hl : l.Nodup) :
    s.Drops (l.foldl State.retireSlot s) l (fun _ => true) row :=
  State.drops_foldl State.retireSlot (fun _ => True) (fun t i _ => ⟨t.retireSlot_drops i row, trivial⟩) l hl s trivial

/-! ### Dismissal (R38) -/

theorem State.ownedSlots_eq (s : State) (w : WriterNo) : s.ownedSlots w = allSlots.filter (s.ownedBy w) := by
  refine List.filter_congr fun i _ => ?_
  cases hs : s.slot i <;> simp [State.ownedBy, hs, Slot.record?]

/-- A filter of a filter, and a mapping of a filter, in the terms of one test. -/
theorem filter_filter_of {α : Type} (p q r : α → Bool) (l : List α) (h : ∀ x, r x = (p x && q x)) :
    (l.filter p).filter q = l.filter r := by
  rw [List.filter_filter]
  exact List.filter_congr fun x _ => by rw [h x, Bool.and_comm]

theorem flatMap_filter_of {α β : Type} (p : α → Bool) (f g : α → List β) (l : List α)
    (h : ∀ x, g x = if p x then f x else []) : (l.filter p).flatMap f = l.flatMap g := by
  induction l with
  | nil => rfl
  | cons x l ih =>
    rw [List.flatMap_cons, ← ih, h x, List.filter_cons]
    cases p x <;> simp

theorem any_filter_of {α : Type} (p f g : α → Bool) (l : List α) (h : ∀ x, g x = (p x && f x)) :
    (l.filter p).any f = l.any g := by
  rw [List.any_filter]
  exact congrArg _ (funext fun x => (h x).symm)

theorem State.port_closeCursorOf (s : State) (p q : PortId) (w : WriterNo) :
    (s.closeCursorOf p w).port q =
      if p = q ∧ (s.port p).cursor.any (fun c => c.writer == w) then { s.port q with cursor := none } else s.port q := by
  cases hc : (s.port p).cursor with
  | none => simp [State.closeCursorOf, hc]
  | some c =>
    by_cases hw : c.writer = w
    · by_cases hp : p = q
      · subst hp; simp [State.closeCursorOf, hc, hw, State.closeCursor]
      · simp [State.closeCursorOf, hc, hw, State.closeCursor, hp]
    · simp [State.closeCursorOf, hc, hw]

theorem State.closeCursorOf_eq (s : State) (p : PortId) (w : WriterNo) :
    s.closeCursorOf p w = { s with portA := (s.closeCursorOf p w).portA, portB := (s.closeCursorOf p w).portB } := by
  unfold State.closeCursorOf
  cases (s.port p).cursor with
  | none => rfl
  | some c =>
    by_cases hw : c.writer = w
    · cases p <;> simp [hw, State.closeCursor, State.setPort]
    · simp [hw]

/-- A dismissal, in the statements' terms. -/
theorem State.dismissWriter_spec (s : State) (w : WriterNo) : s.Dismisses (s.dismissWriter w) w := by
  have hd := s.loseOwners_drops (s.ownedSlots w) (allSlots_nodup.filter _)
  have hclosed : ∃ c : State, (∀ p, c.port p =
        if (s.writer w).binding = some p ∧ (s.port p).cursor.any (fun c => c.writer == w) then
          { s.port p with cursor := none }
        else s.port p) ∧
      (∃ a b, c = { (s.ownedSlots w).foldl State.loseOwnerAt s with portA := a, portB := b }) ∧
      s.dismissWriter w = c.setWriter w { c.writer w with binding := none } := by
    have hport : ∀ p, ((s.ownedSlots w).foldl State.loseOwnerAt s).port p = s.port p := fun p => by
      rw [hd.rest]; rfl
    cases hb : (s.writer w).binding with
    | none =>
      exact ⟨(s.ownedSlots w).foldl State.loseOwnerAt s, fun p => by simp [hport], ⟨_, _, rfl⟩,
        by simp only [State.dismissWriter, hb]⟩
    | some q =>
      refine ⟨((s.ownedSlots w).foldl State.loseOwnerAt s).closeCursorOf q w, fun p => ?_,
        ⟨_, _, State.closeCursorOf_eq _ q w⟩, by simp only [State.dismissWriter, hb]⟩
      rw [State.port_closeCursorOf]
      by_cases hq : q = p
      · subst hq; simp [hport]
      · simp [hport, hq]
  obtain ⟨c, hp, ⟨a, b, hc⟩, hdis⟩ := hclosed
  generalize (s.ownedSlots w).foldl State.loseOwnerAt s = X at *
  rw [State.ownedSlots_eq] at hd
  have hcw : ∀ v, c.writer v = X.writer v := fun v => by rw [hc]; rfl
  rw [hdis]
  refine ⟨fun i => ?_, ?_, fun tag => ?_, ?_, ?_, ?_, fun v hv => ?_, hp, ?_⟩
  · have : (c.setWriter w { c.writer w with binding := none }).slot i = X.slot i := by rw [hc]; rfl
    rw [this, hd.slot i]
    cases hs : s.slot i with
    | free => simp [State.droppedSlot, State.slotWithout, hs]
    | vacating x y => simp [State.droppedSlot, State.slotWithout, hs]
    | holding r =>
      by_cases ho : r.owner = some w <;>
        simp [State.droppedSlot, State.slotWithout, hs, ho, mem_allSlots, State.ownedBy]
  · have : (c.setWriter w { c.writer w with binding := none }).link.queue = X.link.queue := by rw [hc]; rfl
    rw [this, hd.queue]
    congr 1
    refine flatMap_filter_of _ _ _ _ fun i => ?_
    cases hs : s.slot i with
    | free => simp [State.entryWithout, State.ownedBy, hs]
    | vacating x y => simp [State.entryWithout, State.ownedBy, hs]
    | holding r =>
      by_cases ho : r.owner = some w <;> simp [State.entryWithout, State.droppedEntry, State.ownedBy, hs, ho]
  · have : (c.setWriter w { c.writer w with binding := none }).tagIndex = X.tagIndex := by rw [hc]; rfl
    rw [this, hd.index, any_filter_of (s.ownedBy w) _ (fun i => s.retiredFrom w i && (s.slot i).tagged tag)]
    intro i
    cases hs : s.slot i <;> simp [State.ownedBy, State.retiredFrom, State.goneAt, hs, Bool.and_assoc]
  · have h1 : (c.setWriter w { c.writer w with binding := none }).freeCount = X.freeCount := by rw [hc]; rfl
    have h2 := hd.free
    rw [filter_filter_of (s.ownedBy w) _ (s.vacatedFrom w), filter_filter_of (s.ownedBy w) _ (s.retiredFrom w)] at h2
    · rw [h1]; exact h2
    · intro i
      cases hs : s.slot i <;> simp [State.ownedBy, State.retiredFrom, State.goneAt, hs]
    · intro i
      cases hs : s.slot i <;> simp [State.ownedBy, State.vacatedFrom, State.vacatesAt, hs, Bool.and_assoc]
  · have h1 : (c.setWriter w { c.writer w with binding := none }).vacatingCount = X.vacatingCount := by rw [hc]; rfl
    rw [h1, hd.vacating, filter_filter_of (s.ownedBy w) _ (s.vacatedFrom w)]
    intro i
    cases hs : s.slot i <;> simp [State.ownedBy, State.vacatedFrom, State.vacatesAt, hs, Bool.and_assoc]
  · rw [State.writer_setWriter, if_pos rfl, hcw, hd.writers,
      filter_filter_of (s.ownedBy w) _ (s.ownedBy w) _ (fun i => by simp)]
  · rw [State.writer_setWriter, if_neg (Ne.symm hv), hcw, hd.writers]
    rw [filter_filter_of (s.ownedBy w) _ (fun _ => false)]
    · simp
    · intro i
      cases hs : s.slot i with
      | free => simp [State.ownedBy, hs]
      | vacating x y => simp [State.ownedBy, hs]
      | holding r =>
        cases ho : r.owner with
        | none => simp [State.ownedBy, hs, ho]
        | some u =>
          by_cases hu : u = w
          · subst hu; simp [State.ownedBy, hs, ho, Ne.symm hv]
          · simp [State.ownedBy, hs, ho, hu]
  · have hr := hd.rest
    have key : c.setWriter w { c.writer w with binding := none } = { X with
        portA := a, portB := b, writers := c.writers.set w { c.writer w with binding := none } } := by
      rw [hc]; rfl
    rw [key, hr]

end Sys2Proof.Machine
end

