-- ==== Sys2Proof/Laws/Time.lean ====
section
/-! SUPPORT. The passing of time: what a unit of it leaves of each timer, slot and group entry, and which expiries are
due. -/

namespace Sys2Proof.Machine

/-! ### One unit less -/

theorem Timer.tick_oneLess (x : Timer) : x.OneLess x.tick := by
  cases x <;> simp [Timer.OneLess, Timer.tick]

theorem HoldTimer.tick_oneLess (x : HoldTimer) : x.OneLess x.tick := by
  cases x <;> simp [HoldTimer.OneLess, HoldTimer.tick]

theorem Transmission.tick_oneLess (x : Transmission) : x.OneLess x.tick := by
  cases x <;> simp [Transmission.OneLess, Transmission.tick]

theorem Slot.tick_oneLess (x : Slot) : x.OneLess x.tick := by
  cases x with
  | holding r =>
    exact ⟨fun r' h => by cases h; exact ⟨_, _, rfl, Timer.tick_oneLess _, HoldTimer.tick_oneLess _⟩, fun h => by cases h⟩
  | free => exact ⟨fun r h => (by cases h), fun _ => rfl⟩
  | vacating tag sequence => exact ⟨fun r h => (by cases h), fun _ => rfl⟩

/-! ### The part one unit later -/

/-- A function of every entry that leaves FREE as it is acts on every slot. -/
theorem Table.read_map (f : Slot → Slot) (hf : f .free = .free) (t : Table) (i : SlotNo) :
    Table.read (t.map (fun e => (e.1, f e.2))) i = f (t.read i) := by
  induction t with
  | nil => simp [Table.read, hf]
  | cons e t ih =>
    obtain ⟨k, x⟩ := e
    simp only [List.map_cons, Table.read, ih]
    split <;> rfl

@[simp] theorem State.tick_slot (s : State) (i : SlotNo) : s.tick.slot i = (s.slot i).tick :=
  Table.read_map Slot.tick rfl s.table i

@[simp] theorem State.tick_groupEntry (s : State) (g : GroupNo) :
    s.tick.groupEntry g = { s.groupEntry g with timer := (s.groupEntry g).timer.tick } := by
  simp [State.tick, State.groupEntry]

@[simp] theorem State.tick_tagIndex (s : State) : s.tick.tagIndex = s.tagIndex := rfl
@[simp] theorem State.tick_freeCount (s : State) : s.tick.freeCount = s.freeCount := rfl
@[simp] theorem State.tick_vacatingCount (s : State) : s.tick.vacatingCount = s.vacatingCount := rfl
@[simp] theorem State.tick_writers (s : State) : s.tick.writers = s.writers := rfl
@[simp] theorem State.tick_profiles (s : State) : s.tick.profiles = s.profiles := rfl
@[simp] theorem State.tick_queue (s : State) : s.tick.link.queue = s.link.queue := rfl
@[simp] theorem State.tick_linkState (s : State) : s.tick.link.state = s.link.state := rfl
@[simp] theorem State.tick_inFlight (s : State) : s.tick.link.inFlight = s.link.inFlight := rfl
@[simp] theorem State.tick_level (s : State) : s.tick.safe.level = s.safe.level := rfl
@[simp] theorem State.tick_rxp (s : State) : s.tick.rxp = s.rxp.map Reception.tick := rfl
@[simp] theorem State.tick_pending (s : State) : s.tick.pending = s.pending := rfl

@[simp] theorem State.tick_port (s : State) (p : PortId) :
    s.tick.port p = { s.port p with breakInterval := (s.port p).breakInterval.tick } := by
  cases p <;> rfl

/-! ### What is due -/

@[simp] theorem Timer.due_iff (t : Timer) : t.due = true ↔ t = .running 0 := by
  simp [Timer.due]

@[simp] theorem HoldTimer.due_iff (t : HoldTimer) : t.due = true ↔ ∃ period, t = .running 0 period := by
  cases t with
  | stopped => simp [HoldTimer.due]
  | running n period => cases n <;> simp [HoldTimer.due]

@[simp] theorem Transmission.due_iff (t : Transmission) : t.due = true ↔ ∃ rate, t = .running 0 rate := by
  cases t with
  | stopped => simp [Transmission.due]
  | running n rate => cases n <;> simp [Transmission.due]

/-- The expiries due at a slot are those of its record's two timers. -/
theorem State.mem_dueAtSlot (s : State) (i : SlotNo) (c : Instr) :
    c ∈ s.dueAtSlot i ↔
      (∃ r, c = .freshnessExpiry i ∧ s.slot i = .holding r ∧ r.countdown = .running 0) ∨
        (∃ r period, c = .holdTimerExpiry i ∧ s.slot i = .holding r ∧ r.holdTimer = .running 0 period) := by
  unfold State.dueAtSlot
  cases hs : s.slot i with
  | holding r =>
    have key : ∀ (p : Prop) [Decidable p] (a : Instr), (c ∈ if p then [a] else []) ↔ c = a ∧ p := by
      intro p _ a
      split <;> simp [*]
    simp [key]
  | free => simp
  | vacating tag sequence => simp

/-- No writer is bound to a port. -/
theorem State.lowestBound_eq_none (s : State) (p : PortId) :
    s.lowestBound p = none ↔ ∀ w, (s.writer w).binding ≠ some p := by
  simp [State.lowestBound, allWriters]

/-- Some writer is bound to a port. -/
theorem State.lowestBound_isSome (s : State) (p : PortId) :
    (s.lowestBound p).isSome = true ↔ ∃ w, (s.writer w).binding = some p := by
  simp [State.lowestBound, allWriters]

end Sys2Proof.Machine
end

