-- ==== Sys2Proof/WellFormed.lean ====
section
/-! DEFINITION. Which commands spell an event of the part. The operand types bound slots, writers, groups, ports and
lines; what is left to check is that an ignored transaction's first byte is neither transaction code (R148, R174). -/

namespace Sys2Proof

/-- Whether a command spells an event of the part. An ill-formed command changes nothing (notes/assumptions/4.md). -/
def Instr.wellFormed : Instr → Bool
  | .transactionIgnored _ (some b) => (transactionCode? b).isNone
  | _ => true

end Sys2Proof
end

