-- ==== Sys2Proof/Tests/Slice0.lean ====
section
/-! SUPPORT. Single-step tests, with expected results from the manual's worked examples and tables (named in each
docstring), and for every statement a witness that states and operands meet its hypotheses, clause by clause. -/

namespace Sys2Proof.Tests

set_option Elab.async false

open Sys2Proof Sys2Proof.Machine

/-! ### Small states -/

/-- A published DORMANT record as CREATE leaves it. -/
def point : Record where
  tag := 0x0310
  state := .dormant
  owner := none
  precedence := 0
  live := none
  staged := none
  fallback := 0
  lower := 0
  upper := 1000
  clamp := false
  publish := true
  group := 0
  freshnessCode := 50
  holdPolicy := .resume
  holdPeriod := 1
  orphan := .keep
  holdCause := none
  refreshed := none
  sequence := 0
  countdown := .stopped
  holdTimer := .stopped

/-- The record of the precedence ladder of chapter 3: LIVE at 500, unowned, sequence 9. -/
def freeLive : Record :=
  { point with state := .live, live := some 500, sequence := 9 }

/-- A LIVE record that writer 1 owns at 5, with a staged entry of 700. -/
def ownLive : Record :=
  { freeLive with
    owner := some 1, precedence := 5, staged := some { value := 700, clamped := false },
    countdown := .running 2000000 }

/-- A record of writer 1, HELD with cause EXPIRY and not refreshed. -/
def ownHeld : Record :=
  { ownLive with
    state := .held, live := some 0, holdCause := some .expiry, refreshed := some false, countdown := .stopped,
    holdTimer := .running 800000 800000 }

/-- A record of writer 1, HELD with cause SAFE. -/
def ownSafe : Record :=
  { ownLive with state := .held, live := some 0, holdCause := some .safe, countdown := .stopped }

/-- A record of writer 1, LATCHED. -/
def ownLatched : Record :=
  { ownLive with state := .latched, live := some 0, countdown := .stopped }

/-- Writers 0, 1 and 3 bound to port A and writer 2 to port B. -/
def bindings : WriterNo → Option PortId
  | 0 | 1 | 3 => some .a
  | 2 => some .b
  | _ => none

/-- The part with records in slots, both rising in slot and in tag; the link is IDLE. -/
def hold (l : List (SlotNo × Record)) : State :=
  { State.reset with
    table := l.map (fun e => (e.1, .holding e.2))
    tagIndex := l.map (fun e => (e.2.tag, e.1))
    freeCount := 256 - l.length
    writers := Vector.ofFn (fun w =>
      { binding := bindings w, ownedCount := (l.filter (fun e => e.2.owner == some w)).length })
    profiles := ((resetProfiles.set 1 { rights := 0b111111, ceiling := 10, quota := 4 }).set 2
      { rights := 0b111111, ceiling := 6, quota := 4 }).set 3 { rights := 0, ceiling := 14, quota := 0 }
    link := { Link.reset with
      state := .idle, settings := { enable := true, bitRate := .mbit1, timeoutCode := 4, retryLimit := 1 } } }

/-- No record. -/
def base : State :=
  hold []

/-- One record, in slot 20. -/
def one (r : Record) : State :=
  hold [(20, r)]

/-- SAFE is active. -/
def inSafe (s : State) : State :=
  { s with safe := { s.safe with level := .active, lineHigh := false } }

/-- The part with another link state and Publication Queue. -/
def linked (state : LinkState) (queue : List Entry) (s : State) : State :=
  { s with link := { s.link with state := state, queue := queue } }

/-- The UPDATE and the RETIRE entry of slot 20. -/
def entry (kind : EntryKind) : Entry :=
  { slot := 20, tag := 0x0310, kind := kind }

/-- A frame in flight for slot 20 under number 57. -/
def flight (kind : EntryKind) (retries : Nat) : InFlight :=
  { frame := { number := 57, kind := kind, tag := 0x0310, sequence := 9, state := .live, value := 500 }
    entry := entry kind, retries := retries }

/-- A link with that frame in flight. -/
def flying (state : LinkState) (kind : EntryKind) (retries : Nat) (s : State) : State :=
  { s with link := { s.link with
    state := state, inFlight := some (flight kind retries),
    transmission := if state = .sending then .running 560 .mbit1 else .stopped,
    ackTimer := if state = .awaitingAck then .running 4000 else .stopped } }

/-- Slot 20 is VACATING. -/
def vacated (s : State) : State :=
  { s with table := [(20, .vacating 0x0310 9)], tagIndex := [], freeCount := 255, vacatingCount := 1 }

/-- The part after a command. -/
def after (c : Instr) (s : State) : State :=
  match exec c s with
  | .next t => t
  | _ => s

/-- The status a command answers. -/
def statusOf (c : Instr) (s : State) : Option Status :=
  (after c s).result.map OpResult.status

/-- The data a command answers. -/
def dataOf (c : Instr) (s : State) : Option Data :=
  (after c s).result.map OpResult.data

/-- What slot 20 holds after a command. -/
def slot20 (c : Instr) (s : State) : Slot :=
  (after c s).slot 20

/-! ### The records of a small state -/

theorem read_map (l : List (SlotNo × Record)) (h : l.Pairwise (fun a b => a.1 < b.1)) (i : SlotNo) (r : Record) :
    Table.read (l.map (fun e => (e.1, .holding e.2))) i = .holding r ↔ (i, r) ∈ l := by
  induction l with
  | nil => simp [Table.read]
  | cons e l ih =>
    obtain ⟨j, x⟩ := e
    rw [List.pairwise_cons] at h
    by_cases hj : j = i
    · subst hj
      have : (j, r) ∉ l := fun m => absurd (h.1 _ m) (lt_irrefl _)
      simp [Table.read, this, eq_comm]
    · simp [Table.read, hj, ih h.2, Ne.symm hj]

theorem lookup_map (l : List (SlotNo × Record)) (h : l.Pairwise (fun a b => a.2.tag < b.2.tag)) (tag : Word16)
    (i : SlotNo) :
    (l.map (fun e => (e.2.tag, e.1))).lookup tag = some i ↔ ∃ r, (i, r) ∈ l ∧ r.tag = tag := by
  induction l with
  | nil => simp
  | cons e l ih =>
    obtain ⟨j, x⟩ := e
    rw [List.pairwise_cons] at h
    by_cases hj : tag = x.tag
    · subst hj
      have : ∀ r, (i, r) ∈ l → r.tag ≠ x.tag := fun r m e => by
        have := h.1 _ m
        simp only [e] at this
        exact absurd this (BitVec.lt_irrefl _)
      simp only [List.map_cons, List.lookup_cons, beq_self_eq_true, List.mem_cons, Prod.mk.injEq]
      constructor
      · rintro ⟨⟩
        exact ⟨x, .inl ⟨rfl, rfl⟩, rfl⟩
      · rintro ⟨r, ⟨rfl, rfl⟩ | m, e⟩
        · rfl
        · exact absurd e (this r m)
    · have hb : (tag == x.tag) = false := by simpa using hj
      simp only [List.map_cons, List.lookup_cons, hb, ih h.2, List.mem_cons, Prod.mk.injEq]
      constructor
      · rintro ⟨r, m, e⟩
        exact ⟨r, .inr m, e⟩
      · rintro ⟨r, ⟨rfl, rfl⟩ | m, e⟩
        · exact absurd e.symm hj
        · exact ⟨r, m, e⟩

/-- Records rising in slot and in tag meet the law of the Tag Index. -/
theorem hold_indexLaw (l : List (SlotNo × Record)) (hs : l.Pairwise (fun a b => a.1 < b.1))
    (ht : l.Pairwise (fun a b => a.2.tag < b.2.tag)) : (hold l).indexLaw := by
  refine ⟨?_, fun tag i => ?_⟩
  · exact List.pairwise_map.2 ht
  · show (l.map _).lookup tag = some i ↔ ∃ r, Table.read (l.map _) i = .holding r ∧ r.tag = tag
    simp only [lookup_map l ht, read_map l hs]

theorem one_indexLaw (r : Record) : (one r).indexLaw :=
  hold_indexLaw _ (by simp) (by simp)

theorem base_indexLaw : base.indexLaw :=
  hold_indexLaw _ (by simp) (by simp)

/-- A predicate of the listed records holds of every record. -/
theorem hold_every (l : List (SlotNo × Record)) (hs : l.Pairwise (fun a b => a.1 < b.1)) (P : Record → Prop)
    (h : ∀ e ∈ l, P e.2) : (hold l).everyRecord P :=
  fun i r hr => h (i, r) ((read_map l hs i r).1 hr)

/-! ### Well-formedness and words -/

/-- A first byte that is a transaction code ignores no transaction (R148). -/
theorem test_wellFormed_refuses :
    (Instr.transactionIgnored .a (some 0xA1)).wellFormed = false ∧
      (Instr.transactionIgnored .b (some 0xA2)).wellFormed = false := by decide

theorem test_wellFormed_accepts :
    (Instr.transactionIgnored .a (some 0xA3)).wellFormed = true ∧
      (Instr.transactionIgnored .a none).wellFormed = true ∧ (Instr.poll .a 7).wellFormed = true := by decide

/-- No row of the table gives bits. -/
theorem test_no_word_spells_a_command : decodeTableWord 16 0x0001 = none ∧ decodeTableWord 0 0 = none := by decide

/-! ### Bytes (chapter 10) -/

/-- 10.7: the check value of the nine characters 123456789. -/
theorem test_crc_check_value : crc16 [0x31, 0x32, 0x33, 0x34, 0x35, 0x36, 0x37, 0x38, 0x39] = 0x29B1 := by
  decide +kernel

/-- 10.4, 10.5, 10.6: description 35 bytes, short view 14, notice 6, publication frame 14 and 140 bits. -/
theorem test_layout_lengths :
    (base.describe 20 ownLive).bytes.length = 35 ∧ (ownLive.shortView 20).bytes.length = 14 ∧
      (Notice.holdEntered 0x0310).bytes.length = 6 ∧ (flight .update 0).frame.bytes.length = 14 ∧
      (flight .update 0).frame.txpBits.length = 140 := by decide +kernel

/-- 10.2, 10.3: the bytes of a STAGE frame before its CRC. -/
theorem test_stage_frame_bytes :
    (requestFrame 17 4 [.stage 0x0812 300]).take 12 =
      [0x0E, 17, 4, 1, 10, 6, 0x08, 0x12, 0x00, 0x00, 0x01, 0x2C] := by decide +kernel

/-- R151: a SCAN beside another operation is malformed. -/
theorem test_scan_stands_alone :
    judgeFrame none (requestFrame 1 1 [.scan 0 0xFF 0xFF, .status]) = .malformed ∧
      judgeFrame none (requestFrame 1 1 [.scan 0 0xFF 0xFF]) = .ok 1 [.scan 0 0xFF 0xFF] := by decide +kernel

/-! ### Commands, one step each -/

/-- R27, R116: RST_N with SAFE_N low leaves the table empty and starts the stability interval. -/
theorem test_reset_restarts_filter :
    after .rstN (inSafe (one ownHeld)) =
      { State.reset with
        safe := { SafeState.reset with lineHigh := false, stability := .running 4000 } } := by decide +kernel

/-- R162: with select active the break interval starts at the end of the reset. -/
theorem test_reset_starts_break_interval :
    ((after .powerOnReset (after (.selectActivation .a) base)).port .a).breakInterval = .running 20000 := by
  decide +kernel

/-- R35, 10.4: ADMIT of an ADMITTED writer. -/
theorem test_admit : (after (.admitWriter .b 4) base).writer 4 = { binding := some .b, ownedCount := 0 } ∧
    statusOf (.admitWriter .b 1) base = some .alreadyAdmitted := by decide +kernel

/-- The four records of writer 2 in chapter 2's example. -/
def dismissed : List (SlotNo × Record) :=
  [(5, { ownSafe with
      tag := 0x0501, owner := some 2, staged := some { value := 120, clamped := false }, sequence := 7 }),
    (6, { ownHeld with
      tag := 0x0502, owner := some 2, orphan := .fallback, staged := none, refreshed := some true, fallback := 50,
      live := some 50, sequence := 12 }),
    (7, { ownLatched with
      tag := 0x0503, owner := some 2, orphan := .retire, staged := none, fallback := 10, live := some 10, sequence := 4 }),
    (8, { point with
      tag := 0x0504, owner := some 2, precedence := 1, staged := some { value := 30, clamped := false } })]

/-- Chapter 2's example, event 1: the result and the four slots. -/
theorem test_dismiss :
    let t := after (.dismiss .a 0 2) (inSafe (hold dismissed))
    t.result = some { status := .ok, data := .dismissed 4 1 } ∧
      t.slot 6 = .holding { ownHeld with
        tag := 0x0502, owner := none, precedence := 0, orphan := .fallback, staged := none, refreshed := none,
        fallback := 50, live := some 50, sequence := 12, holdCause := some .safe, holdTimer := .stopped } ∧
      t.slot 7 = .vacating 0x0503 4 ∧ t.link.queue = [{ slot := 7, tag := 0x0503, kind := .retire }] ∧
      t.writer 2 = { binding := none, ownedCount := 0 } := by decide +kernel

/-- Chapter 2's example, event 2: release of the records held for SAFE. -/
theorem test_dismiss_then_release :
    let s := after (.dismiss .a 0 2) (inSafe (hold dismissed))
    let t := after .safeRelease { s with safe := { s.safe with lineHigh := true, stability := .running 0 } }
    ((t.slot 5).record?.map (fun r => (r.state, r.live, r.sequence))) = some (.live, some 0, 8) ∧
      ((t.slot 6).record?.map (fun r => (r.state, r.live, r.sequence, r.countdown))) =
        some (.live, some 50, 13, .stopped) := by decide +kernel

/-- R45: the profile of a VACANT writer. -/
theorem test_set_profile :
    (after (.setProfile .a 0 7 0x3F 15 256) base).profile 7 =
      { rights := 0b111111, ceiling := 15, quota := 256 } := by decide +kernel

/-- R46, R30: the profile of writer 0. -/
theorem test_read_profile :
    dataOf (.readProfile .b 2 0) base =
      some (.profile 0 { rights := 0b111111, ceiling := 15, quota := 256 }
        { binding := some .a, ownedCount := 0 }) := by decide +kernel

/-- Chapter 1's example, event 5: slot 3 VACATING, so the lowest FREE slot is another. -/
theorem test_create_skips_vacating :
    let s := { base with table := [(0, .vacating 0x0210 1)], freeCount := 255, vacatingCount := 1 }
    let t := after (.create .a 1 0x0210 2 (-1000) 1000 0 0 1 0 0 1 0) s
    t.result = some { status := .ok, data := .slot 1 } ∧ t.freeCount = 254 ∧
      t.slot 1 = .holding { point with
        tag := 0x0210, group := 1, lower := -1000, upper := 1000, freshnessCode := 0 } := by decide +kernel

/-- Chapter 1's example, event 4: a retirement under a frame in flight. -/
theorem test_retire :
    let s := flying .awaitingAck .update 0 (one ownLive)
    dataOf (.retire .a 1 0x0310) s = some (.slotState 20 .vacating) ∧
      slot20 (.retire .a 1 0x0310) s = .vacating 0x0310 9 ∧
      (after (.retire .a 1 0x0310) s).link.queue = [entry .retire] := by decide +kernel

/-- R14, R126: a pending UPDATE becomes RETIRE in place. -/
theorem test_retire_converts :
    (after (.retire .a 1 0x0310) (linked .down
      [entry .update, { slot := 12, tag := 0x0A12, kind := .update }] (one ownLive))).link.queue =
      [entry .retire, { slot := 12, tag := 0x0A12, kind := .update }] := by decide +kernel

/-- R9: a tag without an entry. -/
theorem test_read_unknown : statusOf (.read .a 1 0x0311) (one ownLive) = some .unknownTag := by decide +kernel

/-- R25: CLEAR_TABLE by writer 0 alone. -/
theorem test_clear_table :
    let s := { one { freeLive with publish := false } with
      writers := (Vector.replicate 8 { binding := none, ownedCount := 0 }).set 0
        { binding := some .a, ownedCount := 0 } }
    (after (.clearTable .a 0) s).table = [] ∧ (after (.clearTable .a 0) s).freeCount = 256 ∧
      dataOf (.clearTable .a 0) s = some (.cleared 1 0) := by decide +kernel

/-- Chapter 3's example, event 1. -/
theorem test_claim_unowned :
    slot20 (.claim .b 2 0x0310 5) (one freeLive) =
      .holding { freeLive with owner := some 2, precedence := 5, countdown := .running 2000000 } ∧
    dataOf (.claim .b 2 0x0310 5) (one freeLive) = some (.claimed 20 .new none 0) := by decide +kernel

/-- Chapter 3's example, events 3, 4 and 6, with the parts of writers 1 and 2 exchanged in event 6. -/
theorem test_claim_takeover :
    let s := one { ownLive with owner := some 2 }
    let t := after (.claim .a 1 0x0310 8) s
    dataOf (.claim .a 1 0x0310 5) s = some (.holder 2 5) ∧ statusOf (.claim .a 1 0x0310 5) s = some .claimHeld ∧
      t.slot 20 = .holding { ownLive with owner := some 1, precedence := 8, staged := none } ∧
      t.portB.notices = [.claimLost 0x0310 1 8] ∧ t.portA.notices = [] ∧
      statusOf (.claim .b 2 0x0310 6) t = some .outranked := by decide +kernel

/-- R40, R41: a release under orphan policy FALLBACK while LIVE. -/
theorem test_release :
    slot20 (.release .a 1 0x0310) (one { ownLive with orphan := .fallback, fallback := 10 }) =
      .holding { freeLive with orphan := .fallback, fallback := 10, live := some 10, sequence := 10 } := by
  decide +kernel

/-- Chapter 4's example, event 4: clamped to the upper limit. -/
theorem test_stage_clamps :
    dataOf (.stage .a 1 0x0310 320) (one { ownLive with clamp := true, lower := -200, upper := 200 }) =
      some (.staged 20 200 true) ∧
    statusOf (.stage .a 1 0x0310 1001) (one ownLive) = some .outOfRange := by decide +kernel

/-- Chapter 6's example, at 520 ms: the entry is placed and the record refreshed. -/
theorem test_stage_refreshes_hold :
    slot20 (.stage .a 1 0x0310 650) (one ownHeld) =
      .holding { ownHeld with staged := some { value := 650, clamped := false }, refreshed := some true } := by
  decide +kernel

/-- Chapter 6's example, at 800 ms. -/
theorem test_touch :
    dataOf (.touch .a 1 0x0310) (one { ownLive with countdown := .running 7 }) = some (.touched 20 .restarted) ∧
      slot20 (.touch .a 1 0x0310) (one { ownLive with countdown := .running 7 }) = .holding ownLive := by
  decide +kernel

/-- Chapter 6's example, at 10 ms: an UNLATCH while SAFE is active. -/
theorem test_unlatch_in_safe :
    slot20 (.unlatch .a 1 0x0310) (inSafe (one ownLatched)) =
      .holding { ownLatched with state := .held, holdCause := some .safe, sequence := 10 } ∧
    (after (.unlatch .a 1 0x0310) (inSafe (one ownLatched))).link.queue = [entry .update] := by decide +kernel

/-- Chapter 4's example, events 1 and 3. -/
theorem test_set_limits :
    let s := one { ownLive with live := some 300, staged := some { value := 450, clamped := false } }
    dataOf (.setLimits .a 1 0x0310 (-200) 200) s = some (.outside false true true) ∧
      slot20 (.setLimits .a 1 0x0310 (-200) 200) (one { ownLive with live := some 150, staged := none }) =
        .holding { ownLive with live := some 150, staged := none, lower := -200, upper := 200 } := by decide +kernel

/-- Chapter 4's example, event 6. -/
theorem test_set_fallback :
    let s := one { ownHeld with lower := -200, upper := 200, sequence := 23 }
    slot20 (.setFallback .a 1 0x0310 (-50)) s =
      .holding { ownHeld with lower := -200, upper := 200, fallback := -50, live := some (-50), sequence := 24 } ∧
    dataOf (.setFallback .a 1 0x0310 (-50)) s = some (.fallbackSet 20 true) := by decide +kernel

/-- R84: freshness code 0 stops the countdown. -/
theorem test_set_supervision :
    slot20 (.setSupervision .a 1 0x0310 0 1 3 2) (one ownLive) =
      .holding { ownLive with
        freshnessCode := 0, holdPolicy := .latch, holdPeriod := 3, orphan := .retire, countdown := .stopped } := by
  decide +kernel

/-- R86: the previous group is reported. -/
theorem test_set_group :
    dataOf (.setGroup .a 1 0x0310 15) (one ownLive) = some (.regrouped 20 0) ∧
      slot20 (.setGroup .a 1 0x0310 15) (one ownLive) = .holding { ownLive with group := 14 } := by decide +kernel

/-- The four members of group 4 in chapter 5's example. -/
def members : List (SlotNo × Record) :=
  [(30, { point with
      tag := 0x0401, owner := some 1, precedence := 3, group := 3, freshnessCode := 20,
      staged := some { value := 100, clamped := false } }),
    (31, { ownLive with
      tag := 0x0402, group := 3, freshnessCode := 0, countdown := .stopped, live := some 250,
      staged := some { value := 250, clamped := false }, sequence := 5 }),
    (32, { ownLive with
      tag := 0x0403, group := 3, freshnessCode := 0, countdown := .stopped, live := some 80,
      staged := some { value := 95, clamped := false }, sequence := 11 }),
    (33, { ownHeld with
      tag := 0x0404, group := 3, refreshed := some true, staged := some { value := 60, clamped := false },
      sequence := 3 })]

/-- Chapter 5's example: group 4 with commit count 41. -/
def grouped : State :=
  { hold members with groups := (hold members).groups.set 3 { period := 0, timer := .stopped, count := 41 } }

/-- Chapter 5's example, event 1. -/
theorem test_commit :
    let t := after (.commit .a 1 4) grouped
    t.result = some { status := .ok, data := .committed 2 42 } ∧
      t.link.queue = [{ slot := 30, tag := 0x0401, kind := .update }, { slot := 32, tag := 0x0403, kind := .update }] ∧
      ((t.slot 30).record?.map (fun r => (r.state, r.live, r.sequence, r.countdown))) =
        some (.live, some 100, 1, .running 800000) ∧
      ((t.slot 31).record?.map (fun r => (r.live, r.staged, r.sequence))) = some (some 250, none, 5) ∧
      t.slot 33 = (hold members).slot 33 := by decide +kernel

/-- Chapter 6's example, at 20 ms: a COMMIT while SAFE is active. -/
theorem test_commit_in_safe :
    let t := after (.commit .a 1 4) (inSafe grouped)
    t.result.map OpResult.status = some .safeActive ∧ t.safe.commitRefused = true ∧
      (t.groupEntry 3).count = 41 := by decide +kernel

/-- Chapter 5's example, events 2 and 3. -/
theorem test_set_cycle_and_expiry :
    let s := after (.setCycle .a 1 4 100) grouped
    s.groupEntry 3 = { period := 100, timer := .running 400000, count := 41 } ∧
      ((after (.cycleTimerExpiry 3) s).groupEntry 3) =
        { period := 100, timer := .running 400000, count := 42 } := by decide +kernel

/-- R102, R100: an enabled line commits its group at a rising edge. -/
theorem test_trigger :
    let s := after (.setTrigger .a 0 1 1 4) grouped
    s.trg1 = { enabled := true, group := 4 } ∧ ((after (.risingEdge .trg1) s).groupEntry 3).count = 42 ∧
      ((after (.risingEdge .trg0) s).groupEntry 3).count = 41 := by decide +kernel

/-- Chapter 5's example: READ_GROUP 4 before event 1. -/
theorem test_read_group :
    dataOf (.readGroup .a 1 4) grouped =
      some (.group 3 { period := 0, timer := .stopped, count := 41 } 4 4 { enabled := false, group := 1 }
        { enabled := false, group := 1 }) := by decide +kernel

/-- Chapter 7's example, event 8, with one of its slots: the flush frees the slot, and the link stays DOWN. -/
theorem test_link_flush :
    let t := after (.linkFlush .a 1) (linked .down [entry .retire] (vacated base))
    t.result = some { status := .ok, data := .flushed 1 1 } ∧ t.slot 20 = .free ∧ t.freeCount = 256 ∧
      t.link.state = .down := by decide +kernel

/-- R138, R141: LINK_START keeps the queue, and RESYNC adds the slots without an entry. -/
theorem test_link_start_and_resync :
    (after (.linkStart .a 1) (linked .down [entry .update] base)).link.state = .idle ∧
      dataOf (.linkStart .a 1) (linked .down [entry .update] base) = some (.entries 1) ∧
      (after (.resync .a 1) (one ownLive)).link.queue = [entry .update] := by decide +kernel

/-- R143, R144: enabling and disabling. -/
theorem test_set_link :
    (after (.setLink .a 0 0 1 4 3) (linked .down [entry .retire] (vacated base))).slot 20 = .free ∧
      (after (.setLink .a 0 0 1 4 3) base).link.state = .off ∧
      dataOf (.setLink .a 0 1 4 15 7) (after (.setLink .a 0 0 1 4 3) base) =
        some (.previousLink { enable := false, bitRate := .mbit1, timeoutCode := 4, retryLimit := 3 } .idle) := by
  decide +kernel

/-- R168, R169: one record passes the filter LIVE of writer 1, and the cursor closes at slot 256. -/
theorem test_scan :
    dataOf (.scan .a 1 2 1 0xFF) (one ownLive) = some (.views true 256 [ownLive.shortView 20]) ∧
      (after (.scan .a 1 2 1 0xFF) (one ownLive)).portA.cursor = none ∧
      statusOf (.scanNext .a 1) (one ownLive) = some .noCursor := by decide +kernel

/-- R165: eight of nine notices leave, the oldest first. -/
theorem test_poll :
    let s := base.setPort .a { base.portA with
      notices := .linkDown :: List.replicate 8 (.safeChanged .active), noticeOverflow := true }
    dataOf (.poll .a 1) s = some (.notices true 1 (.linkDown :: List.replicate 7 (.safeChanged .active))) ∧
      (after (.poll .a 1) s).portA.notices = [.safeChanged .active] ∧
      (after (.poll .a 1) s).portA.noticeOverflow = false := by decide +kernel

/-- Chapter 7's example, event 8: what STATUS reports; R171: the sticky flags go. -/
theorem test_status :
    let s := linked .down [entry .retire] (vacated { base with safe := { base.safe with seenActive := true } })
    dataOf (.status .b 2) s =
      some (.status .released true false .down 1 255 1
        [some .a, some .a, some .b, some .a, none, none, none, none]) ∧
      (after (.status .b 2) s).safe.seenActive = false := by decide +kernel

/-- Chapter 6's example, at 250 ms. -/
theorem test_freshness_expiry :
    let t := after (.freshnessExpiry 20) (one ownLive)
    t.slot 20 = .holding { ownHeld with staged := none, sequence := 10 } ∧
      t.portA.notices = [.holdEntered 0x0310] ∧ t.link.queue = [entry .update] := by decide +kernel

/-- Chapter 6's example, at 450 ms and at 650 ms. -/
theorem test_hold_timer_expiry :
    slot20 (.holdTimerExpiry 20) (one { ownHeld with holdTimer := .running 0 800000 }) = .holding ownHeld ∧
      slot20 (.holdTimerExpiry 20) (one { ownHeld with refreshed := some true }) =
        .holding { ownLive with live := some 0, sequence := 10 } := by decide +kernel

/-- Chapter 6's example, at 0 ms and at 0.3 ms. -/
theorem test_safe_filter :
    (after (.safeNChange false) base).safe.stability = .running 4000 ∧
      (after (.safeNChange true) (after (.safeNChange false) base)) = base := by decide +kernel

/-- Chapter 6's example, at 3 ms, with the LIVE record alone. -/
theorem test_safe_entry :
    let t := after .safeEntry (after (.safeNChange false) (one { ownLive with fallback := 50 }))
    t.slot 20 = .holding { ownSafe with fallback := 50, live := some 50, sequence := 10 } ∧
      t.safe.seenActive = true ∧ t.portA.notices = [.safeChanged .active] ∧
      t.portB.notices = [.safeChanged .active] := by decide +kernel

/-- Chapter 1's example, event 3. -/
theorem test_send_event :
    let t := after .sendEvent (linked .idle [entry .update] (one ownLive))
    t.link.queue = [] ∧ t.link.state = .sending ∧ t.link.transmission = .running 560 .mbit1 ∧
      t.link.inFlight.map InFlight.frame =
        some { number := 0, kind := .update, tag := 0x0310, sequence := 9, state := .live, value := 500 } := by
  decide +kernel

/-- R131: the acknowledgement timer starts with 1 ms. -/
theorem test_end_of_transmission :
    let t := after .endOfTransmission (flying .sending .update 0 base)
    t.link.state = .awaitingAck ∧ t.link.ackTimer = .running 4000 := by decide +kernel

/-- Chapter 1's example, event 8: the acknowledged RETIRE frame frees its slot. -/
theorem test_acknowledgement :
    let t := after (.acknowledgement 0x06 57) (flying .awaitingAck .retire 0 (vacated base))
    t.slot 20 = .free ∧ t.freeCount = 256 ∧ t.vacatingCount = 0 ∧ t.link.state = .idle := by decide +kernel

/-- Chapter 7's example, events 1 and 2. -/
theorem test_ack_timer_expiry :
    let s := flying .awaitingAck .update 0 (one ownLive)
    let u := flying .awaitingAck .update 1 (one ownLive)
    ((after .acknowledgementTimerExpiry s).link.inFlight = some (flight .update 1)) ∧
      (after .acknowledgementTimerExpiry u).link.state = .down ∧
      (after .acknowledgementTimerExpiry u).link.queue = [entry .update] ∧
      (after .acknowledgementTimerExpiry u).portB.notices = [.linkDown] := by decide +kernel

/-- An open ACK byte whose stop bit ended some units ago, at 1 Mbit/s. -/
def openFor (age : Nat) : State :=
  let s := flying .awaitingAck .update 0 base
  { s with link := { s.link with openByte := some { kind := 0x06, age := age } } }

/-- R176: a byte opens an acknowledgement; 30 bit times later, 20 of them before its start bit, the next one completes it. -/
theorem test_rxp_bytes :
    (after (.rxpByte 0x06 true .stopBit) base).link.openByte = some { kind := 0x06, age := 0 } ∧
      (after (.rxpByte 57 true .stopBit) (openFor 120)).link.state = .idle ∧
      (after (.rxpByte 57 true .stopBit) (openFor 121)).link.openByte = some { kind := 57, age := 0 } ∧
      (after (.rxpByte 57 true .startBit) (openFor 80)).rxp = some { rate := .mbit1, age := 0 } ∧
      (after (.rxpByte 57 true .stopBit)
        { openFor 31 with rxp := some { rate := .mbit4, age := 10 } }).link.openByte = some { kind := 57, age := 0 } ∧
      (after (.rxpByte 57 true .stopBit) { openFor 30 with rxp := some { rate := .mbit4, age := 10 } }).link.openByte =
        none ∧
      (after (.rxpByte 57 false .stopBit) (openFor 120)).link.openByte = none := by decide +kernel

/-- R176: ACK on RXP, a low start bit, 0x06 least significant bit first, and the stop bit; no start bit. -/
theorem test_rxp_bits :
    rxpCommand? [false, false, true, true, false, false, false, false, false, true] =
        some (.rxpByte 0x06 true .stopBit) ∧
      rxpCommand? [true, false, true, true, false, false, false, false, false, true] = none := by decide

/-- R105, R176: a unit of time, with timers at 1 and at 0. -/
theorem test_tick :
    let s := { openFor 119 with safe := { base.safe with lineHigh := false, stability := .running 0 } }
    s.tick.link.ackTimer = .running 3999 ∧ s.tick.link.openByte = some { kind := 0x06, age := 120 } ∧
      s.tick.safe = s.safe ∧ (one { ownLive with countdown := .running 1 }).tick.slot 20 =
        .holding { ownLive with countdown := .running 0 } := by decide +kernel

/-- R175: the level of TXP at the start bit of the start byte 0x7E, its bit 0, its bit 1 and its stop bit, in the rate the
transmission began with; high once it is cut off. -/
theorem test_txp :
    let at4 := fun (elapsed : Nat) =>
      ({ (flying .sending .update 0 base).link with transmission := .running (140 - elapsed) .mbit4 } : Link).txp
    at4 0 = false ∧ at4 1 = false ∧ at4 2 = true ∧ at4 8 = false ∧ at4 9 = true ∧ at4 10 = false ∧
      (after (.setLink .a 0 0 1 4 3) (flying .sending .update 0 base)).link.txp = true ∧
      (after .rstN (flying .sending .update 0 base)).link.txp = true := by decide +kernel

/-- R174: 0xA1 clocked in most significant bit first, then a byte, and three bits that make none; 0xA2; no bit. -/
theorem test_serial :
    let edges := fun (bits : List Bool) => bits.flatMap (fun b => [SerialEdge.rising b, .falling])
    serialCommand .a (edges [true, false, true, false, false, false, false, true,
        false, false, false, false, false, true, true, false, true, true, true]) = .request .a [0x06] ∧
      serialCommand .b (edges [true, false, true, false, false, false, true, false]) = .readout .b ∧
      serialCommand .b (edges [true, false, true, false, false, false, true, true]) =
        .transactionIgnored .b (some 0xA3) ∧
      serialCommand .b [] = .transactionIgnored .b none := by decide

/-! ### Ports (chapter 8's example) -/

/-- The batch of event 1. -/
def frame17 : List Byte :=
  requestFrame 17 4 [.claim 0x0812 5, .stage 0x0812 300, .commit 8]

/-- The part before event 1, writer 4 on port A. -/
def before17 : State :=
  let s := hold [(60, { freeLive with tag := 0x0812, live := some 100, group := 7, freshnessCode := 0, sequence := 6 })]
  { s with
    writers := s.writers.set 4 { binding := some .a, ownedCount := 0 }
    profiles := s.profiles.set 4 { rights := 0b010100, ceiling := 7, quota := 3 }
    groups := s.groups.set 7 { period := 0, timer := .stopped, count := 10 } }

/-- The part after the frame was taken and applied. -/
def after17 : State :=
  after (.batchApplication .a) (after (.request .a frame17) before17)

/-- Events 1 and 2: the results, the record and RDY_A. -/
theorem test_batch :
    after17.portA.stored.map (fun r => r.response.results) = some
      [{ status := .ok, data := .claimed 60 .new none 0 }, { status := .ok, data := .staged 60 300 false },
        { status := .ok, data := .committed 1 11 }] ∧
      after17.portA.rdy = true ∧
      (after17.slot 60).record?.map (fun r => (r.live, r.owner, r.staged, r.sequence)) =
        some (some 300, some 4, none, 7) := by decide +kernel

/-- Events 3 and 4: the same bytes again are a duplicate. -/
theorem test_duplicate :
    let s := after (.request .a frame17) after17
    let t := after (.frameCompletion .a) s
    s.portA.unreadDiscarded = true ∧
      t.portA.stored.map (fun r => (r.response.status, r.response.previousUnread, r.response.results.length)) =
        some (.duplicate, true, 3) ∧
      t.portA.unreadDiscarded = false ∧ (t.groupEntry 7).count = 11 := by decide +kernel

/-- Event 5: a complete read. -/
theorem test_readout :
    let s := after (.readout .a) after17
    s.portA.transaction = .readout true
      ((after17.portA.stored.map (fun r => r.response.bytes)).getD []) ∧
      (after (.readoutEnd .a) s).portA.rdy = false ∧ (after (.readoutEnd .a) s).portA.transaction = .inactive ∧
      s.portA.transaction.sdoByte 2 = 17 ∧ s.portA.transaction.sdoByte 200 = 0xFF ∧
      (List.range 8).map (fun n => s.portA.transaction.sdo (17 + n)) =
        [false, false, false, true, false, false, false, true] := by
  decide +kernel

/-- R148, R159: an ignored transaction, a clock edge and the release of select. -/
theorem test_port_lines :
    (after (.transactionIgnored .a (some 0x55)) base).portA.transaction = .ignored ∧
      (after (.clockEdge .a) (base.setPort .a { base.portA with
        transaction := .begun, breakInterval := .running 3 })).portA.breakInterval = .running 20000 ∧
      after (.selectRelease .b) (after (.selectActivation .b) base) = base := by decide +kernel

/-- R48, R160: the break of port A dismisses writers 0, 1 and 3 in this order and then clears the port. -/
theorem test_port_break :
    let s := after (.portBreak .a) (after (.selectActivation .a) base)
    let t := after (.breakDismissal .a) s
    let u := after (.breakDismissal .a) (after (.breakDismissal .a) t)
    s.portA.service = .breaking ∧ (t.writer 0).binding = none ∧ (t.writer 1).binding = some .a ∧
      (u.writer 3).binding = none ∧ (u.writer 2).binding = some .b ∧
      (after (.breakCompletion .a) u).portA.service = .ready ∧
      (after (.breakCompletion .a) u).portA.transaction = .broken := by decide +kernel

/-! ### Witnesses: who speaks, and of which record -/

theorem hold_speaks (l : List (SlotNo × Record)) :
    (hold l).speaks .a 0 ∧ (hold l).speaks .a 1 ∧ (hold l).speaks .b 2 ∧ (hold l).speaks .a 3 := by
  simp [State.speaks, State.writer, hold, bindings]

theorem one_names (r : Record) (h : tagInRange r.tag) : (one r).names r.tag 20 r :=
  ⟨h, (lookup_map [(20, r)] (by simp) r.tag 20).2 ⟨r, by simp, rfl⟩,
    (read_map [(20, r)] (by simp) 20 r).2 (by simp)⟩

/-- Writer 1 speaks at port A and the tag names the record of slot 20. -/
theorem one_ready (r : Record) (h : tagInRange r.tag) : (one r).speaks .a 1 ∧ (one r).names r.tag 20 r :=
  ⟨(hold_speaks _).2.1, one_names r h⟩

/-! ### Witnesses of the statements -/

/-- The part with every timer outside the records run out. -/
def runOut (lineHigh : Bool) : State :=
  { base with
    groups := base.groups.set 14 { period := 1, timer := .running 0, count := 0 }
    safe := { base.safe with lineHigh := lineHigh, stability := .running 0 }
    link := { base.link with transmission := .running 0 .mbit2, ackTimer := .running 0 }
    portB := { base.portB with breakInterval := .running 0 } }

/-- With an empty queue: nothing due, and each expiry due at its timer's end, but not one unit before. -/
theorem witness_EmptyQueueTakesOwnEventOrTime :
    base.pending = [] ∧ base.dueEvents = [] ∧ base.readyEvents = [] ∧
      (one { ownLive with countdown := .running 0 }).dueEvents = [.freshnessExpiry 20] ∧
      (one { ownLive with countdown := .running 1 }).dueEvents = [] ∧
      (one { ownHeld with holdTimer := .running 0 7 }).dueEvents = [.holdTimerExpiry 20] ∧
      (runOut false).dueEvents =
        [.portBreak .b, .cycleTimerExpiry 14, .safeEntry, .endOfTransmission, .acknowledgementTimerExpiry] ∧
      Instr.safeRelease ∈ (runOut true).dueEvents ∧
      (linked .idle [entry .update] base).readyEvents = [.sendEvent] ∧
      (after (.request .a frame17) before17).readyEvents = [.batchApplication .a] ∧
      (after (.request .a frame17) after17).readyAtPort .a = [.frameCompletion .a] ∧
      (after (.portBreak .a) (after (.selectActivation .a) base)).readyEvents = [.breakDismissal .a] ∧
      ({ State.reset with portB := { Port.reset with service := .breaking } } : State).readyEvents =
        [.breakCompletion .b] := by decide +kernel

/-- A VACANT writer, and a writer bound to the other port. -/
theorem witness_AdmissionIsJudgedFirst :
    operationOf (.poll .a 7) = some (.a, 7, .poll) ∧ Op.poll ≠ .admitWriter ∧ (base.writer 7).binding = none ∧
      operationOf (.retire .a 2 0x0310) = some (.a, 2, .retire 0x0310) ∧ (base.writer 2).binding = some .b ∧
      PortId.b ≠ .a := by decide +kernel

theorem witness_AdmitBindsVacantWriter :
    (base.writer 7).binding = none ∧ (base.writer 0).binding ≠ none ∧ base.ownedLaw := by
  unfold State.ownedLaw
  decide +kernel

/-- A supervisor and a writer that is none; each row of the five check orders at the ends of its range. -/
theorem witness_SupervisorOperationsCheckInOrder :
    base.speaks .a 0 ∧ base.speaks .a 1 ∧
      statusOf (.dismiss .a 1 0) base = some .noRight ∧ statusOf (.dismiss .a 0 8) base = some .badOperand ∧
      statusOf (.dismiss .a 0 7) base = some .badState ∧ statusOf (.dismiss .a 1 1) base = some .ok ∧
      statusOf (.setProfile .a 1 7 0 0 0) base = some .noRight ∧
      statusOf (.setProfile .a 0 7 64 0 0) base = some .badOperand ∧
      statusOf (.setProfile .a 0 7 0 16 0) base = some .badOperand ∧
      statusOf (.setProfile .a 0 7 0 0 257) base = some .badOperand ∧
      statusOf (.setProfile .a 0 1 63 15 256) base = some .writerBusy ∧
      statusOf (.setProfile .a 0 7 63 15 256) base = some .ok ∧
      statusOf (.clearTable .a 1) base = some .noRight ∧ statusOf (.clearTable .a 0) base = some .writerPresent ∧
      statusOf (.setTrigger .a 1 0 0 0) base = some .noRight ∧
      statusOf (.setTrigger .a 0 2 0 0) base = some .badOperand ∧
      statusOf (.setTrigger .a 0 1 1 16) base = some .badOperand ∧ statusOf (.setTrigger .a 0 1 1 15) base = some .ok ∧
      statusOf (.setLink .a 1 0 1 4 3) base = some .noRight ∧
      statusOf (.setLink .a 0 1 3 4 3) base = some .badOperand ∧
      statusOf (.setLink .a 0 1 4 16 3) base = some .badOperand ∧
      statusOf (.setLink .a 0 1 4 15 8) base = some .badOperand ∧ statusOf (.setLink .a 0 1 4 15 7) base = some .ok := by
  refine ⟨(hold_speaks _).1, (hold_speaks _).2.1, ?_⟩
  decide +kernel

/-- A writer with every right and one with none, in both SAFE levels; each row at the ends of its range. -/
theorem witness_UntaggedOperationsCheckInOrder :
    base.speaks .a 1 ∧ base.speaks .a 3 ∧ base.safe.level = .released ∧
      statusOf (.commit .a 3 0) base = some .noRight ∧ statusOf (.commit .a 1 16) base = some .badOperand ∧
      statusOf (.commit .a 1 15) base = some .ok ∧ statusOf (.setCycle .a 3 1 0) base = some .noRight ∧
      statusOf (.setCycle .a 1 0 0) base = some .badOperand ∧ statusOf (.setCycle .a 1 15 255) base = some .ok ∧
      statusOf (.linkStart .a 3) base = some .noRight ∧ statusOf (.linkStart .a 1) base = some .linkState ∧
      statusOf (.linkStart .a 1) (linked .down [] base) = some .ok ∧
      statusOf (.linkFlush .a 1) (linked .off [] base) = some .linkState ∧
      statusOf (.linkFlush .a 1) base = some .ok ∧ statusOf (.resync .a 1) (linked .off [] base) = some .linkState ∧
      statusOf (.resync .a 1) base = some .ok ∧ statusOf (.readProfile .a 3 8) base = some .badOperand ∧
      statusOf (.readProfile .a 3 7) base = some .ok ∧ statusOf (.readGroup .a 3 16) base = some .badOperand ∧
      statusOf (.readGroup .a 3 15) base = some .ok ∧ statusOf (.scan .a 3 16 0 1) base = some .badOperand ∧
      statusOf (.scan .a 3 15 8 1) base = some .badOperand ∧ statusOf (.scan .a 3 15 0xFE 0) base = some .badOperand ∧
      statusOf (.scan .a 3 15 7 15) base = some .ok ∧ statusOf (.scanNext .a 3) base = some .noCursor ∧
      statusOf (.poll .a 3) base = some .ok ∧ statusOf (.status .a 3) base = some .ok := by
  refine ⟨(hold_speaks _).2.1, (hold_speaks _).2.2.2, ?_⟩
  decide +kernel

/-- A table with no FREE slot. -/
def full : State :=
  { base with table := allSlots.map (fun i => (i, .vacating 1 0)), freeCount := 0, vacatingCount := 256 }

/-- Each row of CREATE's check order at the ends of its range. -/
theorem witness_CreateChecksInOrder :
    base.speaks .a 1 ∧ base.speaks .a 3 ∧ full.speaks .a 1 ∧
      statusOf (.create .a 3 1 1 0 0 0 0 0 0 0 0 0) base = some .noRight ∧
      statusOf (.create .a 1 0xFFFF 1 0 0 0 0 0 0 0 0 0) base = some .badOperand ∧
      statusOf (.create .a 1 1 16 0 0 0 0 0 0 0 0 0) base = some .badOperand ∧
      statusOf (.create .a 1 1 1 1 0 0 0 0 0 0 0 0) base = some .badOperand ∧
      statusOf (.create .a 1 1 1 0 0 0 0 0 4096 0 0 0) base = some .badOperand ∧
      statusOf (.create .a 1 1 1 0 0 0 0 0 0 0 4 0) base = some .badOperand ∧
      statusOf (.create .a 1 1 1 0 0 0 0 0 0 0 0 3) base = some .badOperand ∧
      statusOf (.create .a 1 0x0310 1 0 5 6 0 0 0 0 0 0) (one freeLive) = some .outOfRange ∧
      statusOf (.create .a 1 0x0310 1 0 5 5 0 0 0 0 0 0) (one freeLive) = some .duplicateTag ∧
      statusOf (.create .a 1 1 1 0 0 0 0 0 0 0 0 0) full = some .tableFull ∧
      statusOf (.create .a 1 0xFFFE 15 (-1) 0 0 1 1 4095 1 3 2) base = some .ok := by
  refine ⟨(hold_speaks _).2.1, (hold_speaks _).2.2.2, (hold_speaks []).2.1, ?_⟩
  decide +kernel

/-- The caller's record, another's and none, with each status of the check orders. -/
theorem witness_TagOperationsCheckInOrder :
    (one ownLive).speaks .a 1 ∧ (one ownLive).speaks .b 2 ∧ (one ownLive).speaks .a 3 ∧ (one ownLive).indexLaw ∧
      statusOf (.read .a 3 0) (one ownLive) = some .badOperand ∧
      statusOf (.read .a 3 1) (one ownLive) = some .unknownTag ∧
      statusOf (.release .b 2 0x0310) (one ownLive) = some .notOwner ∧
      statusOf (.retire .a 3 0) (one ownLive) = some .noRight ∧
      statusOf (.retire .b 2 0x0310) (one ownLive) = some .notOwner ∧
      statusOf (.retire .a 1 0x0310) (one freeLive) = some .ok ∧
      statusOf (.touch .a 1 0x0310) (one freeLive) = some .notOwner ∧
      statusOf (.stage .a 1 0x0310 1000) (one ownLive) = some .ok ∧
      statusOf (.stage .a 1 0x0310 (-1)) (one ownLive) = some .outOfRange ∧
      statusOf (.unlatch .a 1 0x0310) (one ownLive) = some .badState ∧
      statusOf (.setFallback .a 1 0x0310 1001) (one ownLive) = some .outOfRange ∧
      statusOf (.setSupervision .a 1 1 4096 0 0 0) (one ownLive) = some .badOperand ∧
      statusOf (.setSupervision .a 1 0x0310 4095 1 3 2) (one ownLive) = some .ok ∧
      statusOf (.setGroup .a 1 1 0) (one ownLive) = some .badOperand ∧
      statusOf (.setGroup .b 2 0x0310 15) (one ownLive) = some .notOwner := by
  refine ⟨(hold_speaks _).2.1, (hold_speaks _).2.2.1, (hold_speaks _).2.2.2, one_indexLaw _, ?_⟩
  decide +kernel

/-- Every operand at the end of its range. -/
theorem witness_SetProfileReplacesVacantWritersProfile :
    base.speaks .a 0 ∧ (7 : WriterNo) ≠ 0 ∧ (base.writer 7).binding = none ∧ 15 ≤ 15 ∧ 256 ≤ 256 := by
  refine ⟨(hold_speaks _).1, ?_⟩
  decide +kernel

/-- The supervisor dismisses another writer, and a writer itself; the target owns records of each orphan policy. -/
theorem witness_DismissReleasesEveryOwnedRecord :
    (hold dismissed).speaks .a 0 ∧ ((hold dismissed).writer 2).binding ≠ none ∧
      (hold dismissed).speaks .b 2 ∧ allSlots.filter ((hold dismissed).ownedBy 2) = [5, 6, 7, 8] ∧
      allSlots.filter ((hold dismissed).retiredFrom 2) = [7] := by
  refine ⟨(hold_speaks _).1, ?_, (hold_speaks _).2.2.1, ?_⟩ <;> decide +kernel

theorem witness_ReadsReportAndChangeNothing :
    (one ownHeld).speaks .a 1 ∧ (one ownHeld).names 0x0310 20 ownHeld :=
  one_ready ownHeld (by decide)

/-- The lowest FREE slot is 1, below it one that is VACATING; limits equal, freshness at the end of its range. -/
theorem witness_CreateFillsLowestFreeSlot :
    let s := { base with table := [(0, .vacating 1 0)], freeCount := 255, vacatingCount := 1 }
    s.speaks .a 1 ∧ (s.profile 1).rights.getLsbD 0 = true ∧ (0xFFFE : Word16) ≠ 0x0000 ∧
      (0xFFFE : Word16) ≠ 0xFFFF ∧ (-1 : Value).toInt ≤ (-1 : Value).toInt ∧ 4095 ≤ 4095 ∧
      s.tagIndex.lookup 0xFFFE = none ∧ s.slot 1 = .free ∧ ∀ j, j < 1 → s.slot j ≠ .free := by
  refine ⟨(hold_speaks []).2.1, ?_⟩
  decide +kernel

/-- A record that waits for the link and one that does not, owned and unowned. -/
theorem witness_RetireEndsTheRecord :
    ((one ownLive).speaks .a 1 ∧ (one ownLive).names 0x0310 20 ownLive) ∧
      ((one { freeLive with publish := false }).speaks .a 1 ∧
        (one { freeLive with publish := false }).names 0x0310 20 { freeLive with publish := false }) ∧
      ((one ownLive).profile 1).rights.getLsbD 1 = true ∧ ownLive.owner = some 1 ∧ freeLive.owner = none ∧
      ((one freeLive).profile 1).rights.getLsbD 1 = true ∧ ownLive.publish = true ∧
      (one ownLive).link.state ≠ .off := by
  refine ⟨one_ready ownLive (by decide), one_ready { freeLive with publish := false } (by decide), ?_⟩
  decide +kernel

/-- Writer 0 alone is ADMITTED, and owns a record that waits for the link. -/
def cleared : State :=
  { one { ownLive with owner := some 0 } with
    writers := (Vector.replicate 8 { binding := none, ownedCount := 0 }).set 0 { binding := some .a, ownedCount := 1 } }

theorem witness_ClearTableRetiresEveryRecord :
    cleared.speaks .a 0 ∧ (∀ v, v ≠ 0 → (cleared.writer v).binding = none) ∧ cleared.indexLaw ∧ cleared.countLaw ∧
      cleared.ownedLaw := by
  refine ⟨?_, ?_, one_indexLaw { ownLive with owner := some 0 }, ?_, ?_⟩
  · unfold State.speaks
    decide +kernel
  · decide +kernel
  · unfold State.countLaw
    decide +kernel
  · unfold State.ownedLaw
    decide +kernel

/-- Each status of CLAIM's check order, at the ends of the precedence range. -/
theorem witness_ClaimChecksInOrder :
    (one ownLive).speaks .b 2 ∧ (one ownLive).speaks .a 3 ∧ (one ownLive).indexLaw ∧
      statusOf (.claim .a 1 0x0310 1) { one ownLive with profiles := resetProfiles } = some .noRight ∧
      statusOf (.claim .b 2 0x0310 16) (one ownLive) = some .badOperand ∧
      statusOf (.claim .b 2 0x0310 7) (one ownLive) = some .aboveCeiling ∧
      statusOf (.claim .b 2 0x0311 6) (one ownLive) = some .unknownTag ∧
      statusOf (.claim .a 1 0x0310 10) (one ownLive) = some .ok ∧
      statusOf (.claim .b 2 0x0310 5) (one ownLive) = some .claimHeld ∧
      statusOf (.claim .b 2 0x0310 4) (one ownLive) = some .outranked ∧
      statusOf (.claim .a 3 0x0310 6) (one ownLive) = some .quotaFull ∧
      statusOf (.claim .b 2 0x0310 6) (one ownLive) = some .ok := by
  refine ⟨(hold_speaks _).2.2.1, (hold_speaks _).2.2.2, one_indexLaw _, ?_⟩
  decide +kernel

/-- An unowned record with the claimant below its quota, and the claimant's own, at the claimant's ceiling. -/
theorem witness_ClaimTakesOrKeepsOwnership :
    ((one freeLive).speaks .a 1 ∧ (one freeLive).names 0x0310 20 freeLive) ∧
      ((one ownLive).speaks .a 1 ∧ (one ownLive).names 0x0310 20 ownLive) ∧
      1 ≤ (10 : Byte).toNat ∧ (10 : Byte).toNat ≤ 15 ∧ (10 : Byte).toNat ≤ ((one freeLive).profile 1).ceiling ∧
      (10 : Byte).toNat ≤ ((one ownLive).profile 1).ceiling ∧ freeLive.owner = none ∧
      ((one freeLive).writer 1).ownedCount ≠ ((one freeLive).profile 1).quota ∧ ownLive.owner = some 1 := by
  refine ⟨one_ready freeLive (by decide), one_ready ownLive (by decide), ?_⟩
  decide +kernel

/-- Writer 2 below its quota, and writer 3, whose quota is 0, against writer 1's record, one precedence above. -/
theorem witness_TakeoverMovesTheRecord :
    (one ownLive).speaks .b 2 ∧ (one ownLive).speaks .a 3 ∧ (one ownLive).names 0x0310 20 ownLive ∧
      ownLive.owner = some 1 ∧ (1 : WriterNo) ≠ 2 ∧ (1 : WriterNo) ≠ 3 ∧ (6 : Byte).toNat ≤ 15 ∧
      (6 : Byte).toNat ≤ ((one ownLive).profile 2).ceiling ∧ (6 : Byte).toNat ≤ ((one ownLive).profile 3).ceiling ∧
      ownLive.precedence < (6 : Byte).toNat ∧
      ((one ownLive).writer 2).ownedCount ≠ ((one ownLive).profile 2).quota ∧
      ((one ownLive).writer 3).ownedCount = ((one ownLive).profile 3).quota := by
  refine ⟨(hold_speaks _).2.2.1, (hold_speaks _).2.2.2, one_names ownLive (by decide), ?_⟩
  decide +kernel

/-- A record of orphan policy RETIRE and one of another. -/
theorem witness_ReleaseFollowsOrphanPolicy :
    ((one { ownHeld with orphan := .retire }).speaks .a 1 ∧
        (one { ownHeld with orphan := .retire }).names 0x0310 20 { ownHeld with orphan := .retire }) ∧
      ((one ownHeld).speaks .a 1 ∧ (one ownHeld).names 0x0310 20 ownHeld) ∧ ownHeld.owner = some 1 ∧
      ownHeld.orphan ≠ .retire :=
  ⟨one_ready { ownHeld with orphan := .retire } (by decide), one_ready ownHeld (by decide), by decide, by decide⟩

/-- A value at a limit of a record that does not clamp, and one beyond it of a record that does. -/
theorem witness_StagePlacesValueAndRefreshes :
    ((one ownLive).speaks .a 1 ∧ (one ownLive).names 0x0310 20 ownLive) ∧
      ((one { ownHeld with clamp := true }).speaks .a 1 ∧
        (one { ownHeld with clamp := true }).names 0x0310 20 { ownHeld with clamp := true }) ∧
      ((one ownLive).profile 1).rights.getLsbD 2 = true ∧
      ((one { ownHeld with clamp := true }).profile 1).rights.getLsbD 2 = true ∧ ownLive.owner = some 1 ∧
      ¬ (1000 : Value).toInt < ownLive.lower.toInt ∧ ¬ ownLive.upper.toInt < (1000 : Value).toInt ∧
      ownHeld.upper.toInt < (1001 : Value).toInt := by
  refine ⟨one_ready ownLive (by decide), one_ready { ownHeld with clamp := true } (by decide), ?_⟩
  decide +kernel

/-- One record for each of the three effects. -/
theorem witness_TouchRefreshesAndReportsIt :
    ((one ownLive).speaks .a 1 ∧ (one ownLive).names 0x0310 20 ownLive) ∧
      ((one ownHeld).speaks .a 1 ∧ (one ownHeld).names 0x0310 20 ownHeld) ∧
      ((one ownSafe).speaks .a 1 ∧ (one ownSafe).names 0x0310 20 ownSafe) ∧
      ((one ownLive).profile 1).rights.getLsbD 2 = true ∧ ((one ownHeld).profile 1).rights.getLsbD 2 = true ∧
      ((one ownSafe).profile 1).rights.getLsbD 2 = true ∧ ownLive.state = .live ∧ ownLive.freshnessCode ≠ 0 ∧
      ownHeld.state = .held ∧ ownHeld.holdCause = some .expiry ∧ ownSafe.holdCause ≠ some .expiry := by
  refine ⟨one_ready ownLive (by decide), one_ready ownHeld (by decide), one_ready ownSafe (by decide), ?_⟩
  decide +kernel

/-- A LATCHED record, in both SAFE levels. -/
theorem witness_UnlatchEndsTheLatch :
    ((one ownLatched).speaks .a 1 ∧ (one ownLatched).names 0x0310 20 ownLatched) ∧
      ((inSafe (one ownLatched)).speaks .a 1 ∧ (inSafe (one ownLatched)).names 0x0310 20 ownLatched) ∧
      ((one ownLatched).profile 1).rights.getLsbD 2 = true ∧ ownLatched.owner = some 1 ∧
      ownLatched.state = .latched := by
  refine ⟨one_ready ownLatched (by decide), one_ready ownLatched (by decide), ?_⟩
  decide +kernel

/-- Every clause: no right, bad operands, no entry, another's record, a conflict by one unit, and limits that touch the
values. -/
theorem witness_SetLimitsKeepsValuesInside :
    (one ownLive).speaks .a 1 ∧ (one ownLive).speaks .a 3 ∧ (one ownLive).speaks .b 2 ∧ (one ownLive).indexLaw ∧
      (one ownLive).names 0x0310 20 ownLive ∧ ((one ownLive).profile 3).rights.getLsbD 3 = false ∧
      ((one ownLive).profile 1).rights.getLsbD 3 = true ∧ ((one ownLive).profile 2).rights.getLsbD 3 = true ∧
      (1 : Value).toInt ≤ (1 : Value).toInt ∧ (-1 : Value).toInt < (0 : Value).toInt ∧
      (one ownLive).tagIndex.lookup 0x0311 = none ∧ ownLive.owner ≠ some 2 ∧
      dataOf (.setLimits .a 1 0x0310 0 699) (one ownLive) = some (.outside false false true) ∧
      dataOf (.setLimits .a 1 0x0310 0 700) (one ownLive) = some (.slot 20) := by
  refine ⟨(hold_speaks _).2.1, (hold_speaks _).2.2.2, (hold_speaks _).2.2.1, one_indexLaw _,
    one_names ownLive (by decide), ?_⟩
  decide +kernel

/-- A HELD record and an unowned LIVE one, the value at each limit. -/
theorem witness_SetFallbackMovesHeldValue :
    ((one ownHeld).speaks .a 1 ∧ (one ownHeld).names 0x0310 20 ownHeld) ∧
      ((one freeLive).speaks .a 1 ∧ (one freeLive).names 0x0310 20 freeLive) ∧
      ((one ownHeld).profile 1).rights.getLsbD 3 = true ∧ ((one freeLive).profile 1).rights.getLsbD 3 = true ∧
      ownHeld.owner = some 1 ∧ freeLive.owner = none ∧ ownHeld.lower.toInt ≤ (1000 : Value).toInt ∧
      (1000 : Value).toInt ≤ ownHeld.upper.toInt ∧ freeLive.lower.toInt ≤ (0 : Value).toInt := by
  refine ⟨one_ready ownHeld (by decide), one_ready freeLive (by decide), ?_⟩
  decide +kernel

/-- An owned and an unowned record; freshness at the end of its range. -/
theorem witness_SettingsAreReplaced :
    ((one ownLive).speaks .a 1 ∧ (one ownLive).names 0x0310 20 ownLive) ∧
      ((one freeLive).speaks .a 1 ∧ (one freeLive).names 0x0310 20 freeLive) ∧
      ((one ownLive).profile 1).rights.getLsbD 3 = true ∧ ((one freeLive).profile 1).rights.getLsbD 3 = true ∧
      ownLive.owner = some 1 ∧ freeLive.owner = none ∧ 4095 ≤ 4095 := by
  refine ⟨one_ready ownLive (by decide), one_ready freeLive (by decide), ?_⟩
  decide +kernel

/-- The last group, all groups, and SAFE active. -/
theorem witness_CommitMakesStagedValuesLive :
    grouped.speaks .a 1 ∧ (inSafe grouped).speaks .a 1 ∧ (grouped.profile 1).rights.getLsbD 4 = true ∧
      grouped.safe.level = .released ∧ (15 : CommitTarget).val = (14 : GroupNo).val + 1 ∧
      ((0 : CommitTarget).val = 0 ∧ (0 : GroupNo).val = 0) ∧ (inSafe grouped).safe.level = .active ∧
      grouped.changedBy 4 = 2 ∧ grouped.changedBy 3 = 0 := by
  refine ⟨(hold_speaks members).2.1, (hold_speaks members).2.1, ?_⟩
  decide +kernel

/-- A running and a stopped timer; a line enabled in each SAFE level, and one not enabled. -/
theorem witness_TimersAndLinesCommit :
    let s := { grouped with
      groups := grouped.groups.set 14 { period := 255, timer := .running 0, count := 0xFFFF }
      trg1 := { enabled := true, group := 15 } }
    (s.groupEntry 14).timer ≠ .stopped ∧ (s.groupEntry 3).timer = .stopped ∧ (s.trigger .trg1).enabled = true ∧
      s.safe.level = .released ∧ (inSafe s).safe.level = .active ∧ ((inSafe s).trigger .trg1).enabled = true ∧
      (s.trigger .trg0).enabled = false := by decide +kernel

theorem witness_CyclesAndTriggersAreSet :
    base.speaks .a 0 ∧ (base.profile 0).rights.getLsbD 4 = true ∧ (inSafe base).speaks .a 0 := by
  refine ⟨(hold_speaks _).1, ?_, (hold_speaks []).1⟩
  decide +kernel

theorem witness_SafeFilterMeasuresTheLine :
    false ≠ base.safe.lineHigh ∧ true = base.safe.lineHigh ∧ true ≠ (inSafe base).safe.lineHigh := by decide +kernel

/-- The stability interval runs with the line low; it does not run; it runs with the line high. -/
theorem witness_SafeEntryHoldsEveryLiveRecord :
    let s := after (.safeNChange false) (one ownLive)
    s.safe.stability ≠ .stopped ∧ s.safe.lineHigh = false ∧ base.safe.stability = .stopped ∧
      base.safe.lineHigh = true := by decide +kernel

theorem witness_SafeReleaseReturnsHeldRecords :
    let s := after (.safeNChange true) (inSafe (one ownSafe))
    s.safe.stability ≠ .stopped ∧ s.safe.lineHigh = true ∧ (inSafe base).safe.stability = .stopped ∧
      (inSafe base).safe.lineHigh = false := by decide +kernel

/-- A supervised record of each hold policy, and a slot whose countdown does not run. -/
theorem witness_FreshnessExpiryHoldsOrLatches :
    (one ownLive).slot 20 = .holding ownLive ∧ ownLive.state = .live ∧ ownLive.countdown ≠ .stopped ∧
      ownLive.owner = some 1 ∧ ownLive.holdPolicy = .resume ∧
      (one { ownLive with holdPolicy := .latch }).slot 20 = .holding { ownLive with holdPolicy := .latch } ∧
      (one freeLive).slot 20 = .holding freeLive ∧ freeLive.countdown = .stopped ∧ base.slot 255 = .free := by
  decide +kernel

/-- A hold for each of the four rows, and a slot whose hold timer does not run. -/
theorem witness_HoldTimerExpiryFollowsItsTable :
    (one ownHeld).slot 20 = .holding ownHeld ∧ ownHeld.state = .held ∧ ownHeld.holdCause = some .expiry ∧
      ownHeld.holdTimer ≠ .stopped ∧ ownHeld.owner = some 1 ∧ ownHeld.refreshed ≠ some true ∧
      ownHeld.holdPolicy = .resume ∧
      (one { ownHeld with holdPolicy := .latch }).slot 20 = .holding { ownHeld with holdPolicy := .latch } ∧
      (one { ownHeld with refreshed := some true }).slot 20 = .holding { ownHeld with refreshed := some true } ∧
      (inSafe (one { ownHeld with refreshed := some true })).slot 20 =
        .holding { ownHeld with refreshed := some true } ∧
      (one ownHeld).safe.level = .released ∧ (inSafe (one ownHeld)).safe.level = .active ∧
      (one ownSafe).slot 20 = .holding ownSafe ∧ ownSafe.holdTimer = .stopped := by decide +kernel

/-- An IDLE link with an UPDATE and with a RETIRE entry at the head, with an empty queue, and a link not IDLE. -/
theorem witness_SendEventLatchesHeadEntry :
    (linked .idle [entry .update] (one ownLive)).link.state = .idle ∧
      (linked .idle [entry .update] (one ownLive)).link.queue = [entry .update] ∧
      (linked .idle [entry .update] (one ownLive)).slot 20 = .holding ownLive ∧ ownLive.live = some 500 ∧
      (linked .idle [entry .retire] (vacated base)).slot (entry .retire).slot = .vacating 0x0310 9 ∧
      (linked .idle [entry .retire] (vacated base)).link.queue = [entry .retire] ∧
      base.link.state = .idle ∧ base.link.queue = [] ∧ (linked .down [entry .update] base).link.state ≠ .idle := by
  decide +kernel

/-- The last transmission with and without an acknowledgement noted, a timer that runs out, and neither. -/
theorem witness_LinkTimersMoveTheFrame :
    let s := flying .sending .retire 1 (vacated base)
    s.link.state = .sending ∧ s.link.inFlight = some (flight .retire 1) ∧ s.link.noted = false ∧
      ({ s.link with noted := true } : Link).noted = true ∧ base.link.state ≠ .sending ∧
      base.link.state ≠ .awaitingAck ∧
      (flying .awaitingAck .update 1 base).link.state = .awaitingAck ∧
      (flying .awaitingAck .update 1 base).link.inFlight = some (flight .update 1) := by decide +kernel

/-- Each link state with a frame in flight, and without. -/
theorem witness_AcknowledgementsAreJudged :
    (flying .awaitingAck .retire 0 (vacated base)).link.inFlight = some (flight .retire 0) ∧
      (flying .awaitingAck .retire 0 (vacated base)).link.state = .awaitingAck ∧
      (flying .sending .update 0 base).link.inFlight = some (flight .update 0) ∧ (flight .update 0).retries = 0 ∧
      (flying .sending .update 1 base).link.inFlight = some (flight .update 1) ∧ (flight .update 1).retries ≠ 0 ∧
      (flying .sending .update 1 base).link.state = .sending ∧ (flight .update 1).frame.number ≠ 58 ∧
      (0x07 : Byte) ≠ 0x06 ∧ (0x07 : Byte) ≠ 0x15 ∧ State.reset.link.state = .off ∧ base.link.state = .idle ∧
      (linked .down [] base).link.state = .down := by decide +kernel

/-- A byte under way and none; an OFF link, and an enabled one without an open byte, with one in time to the last unit
and with one too old by one, for a byte whose start bit was noted at another rate and for one whose start bit was not. -/
theorem witness_ReceivedBytesPairUp :
    let noted := fun (age : Nat) => ({ openFor age with rxp := some { rate := .mbit4, age := 10 } } : State)
    base.rxp = none ∧ (noted 30).rxp ≠ none ∧ (noted 30).rxp = some { rate := .mbit4, age := 10 } ∧
      (noted 30).link.settings.bitRate = .mbit1 ∧
      State.reset.link.state = .off ∧ base.link.state ≠ .off ∧ base.link.openByte = none ∧
      (noted 30).link.openByte = some { kind := 0x06, age := 30 } ∧ 30 ≤ 20 * bitTime .mbit4 + 10 ∧
      (noted 31).link.openByte = some { kind := 0x06, age := 31 } ∧ 20 * bitTime .mbit4 + 10 < 31 ∧
      (openFor 120).rxp = none ∧ (openFor 120).link.settings.bitRate = .mbit1 ∧
      (openFor 120).link.openByte = some { kind := 0x06, age := 120 } ∧
      120 ≤ 20 * bitTime .mbit1 + 10 * bitTime .mbit1 ∧
      (openFor 121).link.openByte = some { kind := 0x06, age := 121 } ∧
      20 * bitTime .mbit1 + 10 * bitTime .mbit1 < 121 ∧ (openFor 121).link.state ≠ .off := by decide +kernel

/-- A DOWN link for the first clause; an enabled one, with a slot to free and a slot to publish, for the others. -/
theorem witness_LinkStartFlushAndResync :
    base.speaks .a 1 ∧ (base.profile 1).rights.getLsbD 5 = true ∧ (linked .down [] base).link.state = .down ∧
      (linked .down [entry .retire] (vacated base)).link.state ≠ .off ∧
      dataOf (.linkFlush .a 1) (linked .down [entry .retire] (vacated base)) = some (.flushed 1 1) ∧
      dataOf (.resync .a 1) (one ownLive) = some (.entries 1) := by
  refine ⟨(hold_speaks _).2.1, ?_⟩
  decide +kernel

/-- Settings at the ends of their ranges; the link OFF and not OFF. -/
theorem witness_SetLinkEnablesAndDisables :
    base.speaks .a 0 ∧ (linked .off [] base).speaks .a 0 ∧ 1 ≤ 1 ∧ 15 ≤ 15 ∧ 7 ≤ 7 ∧
      (linked .off [] base).link.state = .off ∧ base.link.state ≠ .off := by
  refine ⟨(hold_speaks _).1, (hold_speaks []).1, ?_⟩
  decide +kernel

/-- Filter bytes at the ends of their ranges; a cursor of the caller at the last slot. -/
theorem witness_ScansWalkTheTable :
    let c : Cursor := { writer := 1, filter := { states := 0, owner := .any, group := none }, nextSlot := 255 }
    let s := (one ownLive).setPort .a { (one ownLive).portA with cursor := some c }
    s.speaks .a 1 ∧ (15 : Byte).toNat ≤ 15 ∧ (7 : Byte).toNat ≤ 7 ∧ 1 ≤ (15 : Byte).toNat ∧
      (s.port .a).cursor = some c ∧ c.writer = 1 := by
  refine ⟨(hold_speaks [(20, ownLive)]).2.1, ?_⟩
  decide +kernel

/-- Fewer than eight notices, exactly eight, and more. -/
theorem witness_PollAndStatusReportAndClear :
    let s := base.setPort .a { base.portA with notices := List.replicate 9 .linkDown }
    s.speaks .a 1 ∧ (s.port .a).notices = List.replicate 8 .linkDown ++ [.linkDown] ∧
      (List.replicate 8 Notice.linkDown).length = 8 ∧ (base.port .a).notices = [] ++ [] ∧
      ([] : List Notice).length < 8 := by
  refine ⟨(hold_speaks []).2.1, ?_⟩
  decide +kernel

/-- Each transaction that a clause names, with the port READY and during a break. -/
theorem witness_PortLinesDriveTheBreakInterval :
    (base.port .a).transaction = .inactive ∧ (after (.selectActivation .a) base).portA.transaction = .begun ∧
      (after (.portBreak .a) (after (.selectActivation .a) base)).portA.transaction = .broken ∧
      (after (.portBreak .a) (after (.selectActivation .a) base)).portA.service = .breaking ∧
      (0x00 : Byte) ≠ 0xA1 ∧ (0x00 : Byte) ≠ 0xA2 := by decide +kernel

/-- A READY port, a port with a frame in service, and a transaction that a break ended. -/
theorem witness_RequestIsTakenOrDiscarded :
    (base.port .a).transaction = .inactive ∧ (base.port .a).service = .ready ∧
      (after (.request .a []) base).portA.service ≠ .ready ∧
      (after (.request .a []) base).portA.transaction = .inactive ∧
      (after (.portBreak .a) (after (.selectActivation .a) base)).portA.transaction ≠ .inactive ∧
      (after (.portBreak .a) (after (.selectActivation .a) base)).portA.transaction ≠ .begun := by decide +kernel

/-- Frames of 241, 2, 3 and more bytes: too long, too short, three bytes with their CRC, and a batch, new and repeated. -/
theorem witness_FramesAreJudgedInOrder :
    240 < (List.replicate 241 (0 : Byte)).length ∧ ([0, 0] : List Byte).length < 3 ∧
      (withCrc [5]).length = 3 ∧ withCrc [5] = withCrc ((withCrc [5]).take 1) ∧ readFrame (withCrc [5]) = none ∧
      readFrame frame17 = some (4, [.claim 0x0812 5, .stage 0x0812 300, .commit 8]) ∧
      frame17 = withCrc (frame17.take (frame17.length - 2)) ∧
      judgeFrame after17.portA.duplicate frame17 = .duplicate := by decide +kernel

/-- The judgement of the frame in service at port A. -/
def judged (s : State) : Option Judgement :=
  match s.portA.service with
  | .serving f => some f.judgement
  | _ => none

/-- A taken frame of each judgement. -/
theorem witness_FramesCompleteWithTheirResponse :
    judged (after (.request .a [1, 2, 3]) base) = some .crcError ∧
      judged (after (.request .a (withCrc [5])) base) = some .malformed ∧
      judged (after (.request .a frame17) after17) = some .duplicate ∧
      (after (.request .a frame17) after17).portA.duplicate.isSome = true ∧
      judged (after (.request .a frame17) before17) =
        some (.ok 4 [.claim 0x0812 5, .stage 0x0812 300, .commit 8]) := by decide +kernel

/-- Batches whose operations before the one in question are accepted, that one accepted and refused; an operation
command. -/
theorem witness_BatchStopsAtFirstRefusal :
    (∀ x ∈ (applyBatch .a 4 [] before17).1, x.status = .ok) ∧
      (∀ x ∈ (applyBatch .a 4 [.claim 0x0812 5] before17).1, x.status = .ok) ∧
      (applyOp .a 4 (.stage 0x0812 300) (applyBatch .a 4 [.claim 0x0812 5] before17).2).1.status = .ok ∧
      (applyOp .a 4 (.stage 0x0812 1001) (applyBatch .a 4 [.claim 0x0812 5] before17).2).1.status = .outOfRange ∧
      operationOf (.claim .a 4 0x0812 5) = some (.a, 4, .claim 0x0812 5) := by decide +kernel

/-- Whether port A sends a stored response (yes), a NONE header (no) or neither. -/
def sending (s : State) : Option Bool :=
  match s.portA.transaction with
  | .readout ofStored _ => some ofStored
  | _ => none

/-- A read-out of a stored response and of a NONE header, and a transaction that can start none. -/
theorem witness_ReadoutSendsTheStoredResponse :
    (base.port .a).transaction = .inactive ∧ (after (.selectActivation .a) after17).portA.transaction = .begun ∧
      sending (after (.readout .a) after17) = some true ∧ sending (after (.readout .a) base) = some false ∧
      (after (.transactionIgnored .a (some 0)) base).portA.transaction = .ignored := by decide +kernel

/-- A running break interval with and without a bound writer, none running, and a break with writers left and without. -/
theorem witness_PortBreakDismissesThenClears :
    let s := after (.selectActivation .a) base
    let t := after (.portBreak .a) s
    let u := after (.breakDismissal .a) (after (.breakDismissal .a) (after (.breakDismissal .a) t))
    (s.port .a).breakInterval ≠ .stopped ∧ (s.writer 0).binding = some .a ∧
      ((after (.selectActivation .b) State.reset).port .b).breakInterval ≠ .stopped ∧
      (∀ w, ((after (.selectActivation .b) State.reset).writer w).binding ≠ some .b) ∧
      (base.port .a).breakInterval = .stopped ∧ (t.port .a).service = .breaking ∧ (t.writer 0).binding = some .a ∧
      (∀ v, v < 0 → (t.writer v).binding ≠ some .a) ∧ (u.port .a).service = .breaking ∧
      (∀ w, (u.writer w).binding ≠ some .a) ∧ (base.port .a).service ≠ .breaking := by decide +kernel

/-- A batch of one operation that stands alone, and one of eight of the longest. -/
theorem witness_WrittenFramesAreReadBack :
    batchOk [.poll] = true ∧
      batchOk (List.replicate 8 (.create 1 1 0 0 0 0 0 0 0 0 0)) = true ∧
      (requestFrame 0 7 (List.replicate 8 (.create 1 1 0 0 0 0 0 0 0 0 0))).length = 198 := by decide +kernel

theorem witness_FramesReadAreAsWritten :
    judgeFrame none frame17 = .ok 4 [.claim 0x0812 5, .stage 0x0812 300, .commit 8] := by decide +kernel

/-- The longest response: eight results, one with data. A transmission at its first and its last unit, and none. -/
theorem witness_ResponsesAndFramesAreSentAsLaidOut :
    let results : List OpResult :=
      { status := .ok, data := .views true 256 (List.replicate 8 (ownLive.shortView 20)) } ::
        List.replicate 7 { status := .skipped, data := .empty }
    let running := fun (n : Nat) =>
      ({ (flying .sending .update 0 base).link with transmission := .running n .mbit4 } : Link)
    results.length ≤ 8 ∧ (∀ x ∈ results, x.data.bytes.length ≤ 255) ∧ 13 < 14 ∧ 9 < 10 ∧
      (running 140).inFlight = some (flight .update 0) ∧ 0 < 140 * bitTime .mbit4 ∧ 139 < 140 * bitTime .mbit4 ∧
      (running 1).transmission = .running (140 * bitTime .mbit4 - 139) .mbit4 ∧ base.link.transmission = .stopped := by
  decide +kernel

/-! ### Witnesses of the laws: lawful states other than reset, about to take a command -/

/-- A LIVE, a HELD and a LATCHED record, the last unowned. -/
def busyRecords : List (SlotNo × Record) :=
  [(20, ownLive), (21, { ownHeld with tag := 0x0311 }),
    (22, { ownLatched with tag := 0x0312, owner := none, precedence := 0, staged := none })]

/-- The part with those records, and a freshness expiry waiting. -/
def busy : State :=
  { hold busyRecords with pending := [.freshnessExpiry 20] }

theorem busy_every (P : Record → Prop) (h : ∀ e ∈ busyRecords, P e.2) : busy.everyRecord P :=
  hold_every busyRecords (by decide +kernel) P h

theorem witness_StepKeepsTableIndexAndCounts :
    busy.tableLaw ∧ busy.indexLaw ∧ busy.countLaw ∧ ∃ t, step busy = .next t := by
  refine ⟨?_, hold_indexLaw busyRecords (by decide +kernel) (by decide +kernel), ?_, _, rfl⟩
  · unfold State.tableLaw
    decide +kernel
  · unfold State.countLaw
    decide +kernel

theorem witness_StepKeepsRecordLaws : busy.limitsLaw ∧ busy.shapeLaw ∧ ∃ t, step busy = .next t := by
  refine ⟨busy_every _ ?_, busy_every _ ?_, _, rfl⟩
  · simp [busyRecords, ownLive, ownHeld, ownLatched, freeLive, point, Record.withinLimits, within]
  · simp [busyRecords, ownLive, ownHeld, ownLatched, freeLive, point, Record.fieldsFitState, Record.timersFitState]

theorem witness_StepKeepsOwnershipLaws :
    busy.ownedLaw ∧ busy.precedenceLaw ∧ busy.profileLaw ∧ ∃ t, step busy = .next t := by
  refine ⟨?_, busy_every _ ?_, ?_, _, rfl⟩
  · unfold State.ownedLaw
    decide +kernel
  · have owned : 1 ≤ 5 ∧ 5 ≤ (busy.profile 1).ceiling ∧ (busy.writer 1).binding ≠ none := by decide +kernel
    rintro e (_ | ⟨_, _ | ⟨_, _ | ⟨_, h⟩⟩⟩)
    · exact owned
    · exact owned
    · exact ⟨rfl, rfl⟩
    · cases h
  · unfold State.profileLaw
    decide +kernel

/-- SAFE is active with a HELD record, the line is high, and SAFE release waits. -/
def leaving : State :=
  { after (.safeNChange true) (inSafe (one ownSafe)) with pending := [.safeRelease] }

theorem witness_StepKeepsSafeLaws :
    leaving.safeLaw ∧ leaving.cycleLaw ∧ leaving.filterLaw ∧ leaving.safe.level = .active ∧
      ∃ t, step leaving = .next t := by
  refine ⟨fun _ => hold_every [(20, ownSafe)] (by simp) _ (by decide), ?_, ?_, by decide +kernel, _, rfl⟩
  · unfold State.cycleLaw
    decide +kernel
  · unfold State.filterLaw
    decide +kernel

/-- An UPDATE of slot 20 is sent again after its acknowledgement was noted, while the slot's RETIRE entry is pending. -/
def retiring : State :=
  let s := flying .sending .update 1 (linked .idle [entry .retire] (vacated base))
  { s with link := { s.link with noted := true }, pending := [.endOfTransmission] }

theorem retiring_slot (i : SlotNo) : (retiring.slot i).isVacating = true ↔ i = 20 := by
  revert i
  decide +kernel

theorem witness_StepKeepsLinkLaws :
    retiring.linkLaw ∧ retiring.queueLaw ∧ retiring.vacatingLaw ∧ retiring.inFlightLaw ∧
      ∃ t, step retiring = .next t := by
  have inFlight : retiring.link.inFlight = some (flight .update 1) := rfl
  refine ⟨⟨?_, ?_, ?_, ?_, ?_, ?_⟩, ?_, fun i => ?_, fun f h k => ?_, _, rfl⟩
  · decide +kernel
  · decide +kernel
  · decide +kernel
  · decide +kernel
  · refine fun _ => ⟨rfl, fun f h => ?_⟩
    cases inFlight.symm.trans h
    decide
  · exact fun h => absurd h (by decide)
  · unfold State.queueLaw
    decide +kernel
  · rw [retiring_slot]
    have queue : retiring.link.queue = [entry .retire] := rfl
    simp [State.retireAwaited, queue, inFlight, entry, flight, eq_comm]
  · cases inFlight.symm.trans h
    cases k

/-- Port A with 32 notices, a running break interval and an open cursor at the last slot; a notice for it waits. -/
def crowded : State :=
  { base with
    portA := { Port.reset with
      notices := List.replicate 32 .linkDown, breakInterval := .running 1, transaction := .begun,
      cursor := some { writer := 1, filter := { states := 0, owner := .any, group := none }, nextSlot := 255 } }
    pending := [.selectRelease .a] }

theorem witness_StepKeepsPortLaws : (∀ p, crowded.portLaw p) ∧ ∃ t, step crowded = .next t := by
  refine ⟨fun p => ?_, _, rfl⟩
  cases p
  · refine ⟨by decide +kernel, by decide +kernel, by decide +kernel, fun c h => ?_⟩
    cases (show crowded.portA.cursor = some _ from rfl).symm.trans h
    decide +kernel
  · refine ⟨by decide +kernel, by decide +kernel, by decide +kernel, fun c h => ?_⟩
    cases h

end Sys2Proof.Tests
end

namespace Sys2Proof.Machine

/-! ### What an event is made of -/

/-- The laws of one record (R2, R3, R105). -/
def Record.sound (r : Record) : Prop :=
  r.withinLimits ∧ r.fieldsFitState ∧ r.timersFitState

/-- The canonical form of the Record Table, with the Tag Index and the counts in agreement with it. -/
def State.tableLaws (s : State) : Prop :=
  s.tableLaw ∧ s.indexLaw ∧ s.countLaw

/-- The laws of the link and its queue (R14, R124, R126, R127, R144). -/
def State.publicationLaws (s : State) : Prop :=
  s.linkLaw ∧ s.queueLaw ∧ s.vacatingLaw ∧ s.inFlightLaw

/-- What no change of a record touches: its tag, whether it publishes, and the sequence, which the change itself counts
on (R11). -/
structure Record.SameEntry (r new : Record) : Prop where
  tag : new.tag = r.tag
  publish : new.publish = r.publish
  sequence : new.sequence = r.sequence

/-- The part `t` has the Record Table, the Tag Index, the counts and the link of `s`. -/
structure State.SameRecords (s t : State) : Prop where
  table : t.table = s.table
  index : t.tagIndex = s.tagIndex
  freeCount : t.freeCount = s.freeCount
  vacatingCount : t.vacatingCount = s.vacatingCount
  link : t.link = s.link

/-- The elementary moves that every event of the part is made of, as far as records and the link go. A change of a
record answers for the laws of that record, and a move of the link for the laws of the link. -/
inductive Move (s : State) : State → Prop where
  /-- Neither a record nor the link is concerned. -/
  | elsewhere {t : State} (same : s.SameRecords t) : Move s t
  /-- A record takes new fields (R11). -/
  | change {i : SlotNo} {r new : Record} (holds : s.slot i = .holding r) (entry : r.SameEntry new)
      (sound : r.sound → new.sound) : Move s (s.changeRecord i r new)
  /-- A record is retired (R13). -/
  | retire {i : SlotNo} {r : Record} (holds : s.slot i = .holding r) : Move s (s.retireRecord i r)
  /-- A record is created (R18). -/
  | create {i : SlotNo} {r : Record} (free : s.slot i = .free) (fresh : s.tagIndex.lookup r.tag = none)
      (sound : r.sound) : Move s (s.addRecord i r)
  /-- The link moves on, and slots that were VACATING become FREE (R15). -/
  | link (freed : List SlotNo) (x : Link)
      (kept : s.publicationLaws → ((freed.foldl State.freeSlot s).setLink x).publicationLaws) :
      Move s ((freed.foldl State.freeSlot s).setLink x)
  /-- A unit of time passes (R105). -/
  | tick : Move s s.tick
  /-- The part is reset (R27). -/
  | reset : Move s s.afterReset

/-- One part is reached from another by elementary moves. -/
abbrev Moves : State → State → Prop :=
  Relation.ReflTransGen Move

/-- What every elementary move keeps, a chain of them keeps. -/
theorem Moves.keeps {P : State → Prop} (move : ∀ {s t}, Move s t → P s → P t) {s t : State} (h : Moves s t)
    (hs : P s) : P t := by
  induction h with
  | refl => exact hs
  | tail _ m ih => exact move m ih

theorem Move.moves {s t : State} (h : Move s t) : Moves s t :=
  .single h

theorem Moves.change {s : State} {i : SlotNo} {r : Record} (new : Record) (holds : s.slot i = .holding r)
    (entry : r.SameEntry new) (sound : r.sound → new.sound) : Moves s (s.changeRecord i r new) :=
  (Move.change holds entry sound).moves

theorem State.SameRecords.moves {s t : State} (h : s.SameRecords t) : Moves s t :=
  (Move.elsewhere h).moves

theorem State.SameRecords.slot {s t : State} (h : s.SameRecords t) (i : SlotNo) : t.slot i = s.slot i := by
  simp [State.slot, h.table]

/-- A fold is a chain of moves where each of its steps is. -/
theorem Moves.foldl {α : Type} {g : State → α → State} (hg : ∀ s a, Moves s (g s a)) (l : List α) (s : State) :
    Moves s (l.foldl g s) := by
  induction l generalizing s with
  | nil => exact .refl
  | cons a l ih => exact (hg s a).trans (ih (g s a))

/-! ### What a slot shows of itself -/

@[simp] theorem Slot.isVacating_free : Slot.free.isVacating = false := rfl
@[simp] theorem Slot.isVacating_vacating (tag sequence : Word16) : (Slot.vacating tag sequence).isVacating = true := rfl
@[simp] theorem Slot.isVacating_holding (r : Record) : (Slot.holding r).isVacating = false := rfl
@[simp] theorem Slot.record?_free : Slot.free.record? = none := rfl
@[simp] theorem Slot.record?_vacating (tag sequence : Word16) : (Slot.vacating tag sequence).record? = none := rfl
@[simp] theorem Slot.record?_holding (r : Record) : (Slot.holding r).record? = some r := rfl
@[simp] theorem Slot.tagged_free (tag : Word16) : Slot.free.tagged tag = false := rfl
@[simp] theorem Slot.tagged_vacating (a b tag : Word16) : (Slot.vacating a b).tagged tag = false := rfl
@[simp] theorem Slot.tagged_holding (r : Record) (tag : Word16) : (Slot.holding r).tagged tag = (r.tag == tag) := rfl

/-! ### Moves that concern neither a record nor the link -/

theorem Moves.setPort (s : State) (p : PortId) (x : Port) : Moves s (s.setPort p x) :=
  State.SameRecords.moves ⟨by simp, by simp, by simp, by simp, by simp⟩

theorem Moves.setTrigger (s : State) (l : TriggerLine) (x : TriggerEntry) : Moves s (s.setTrigger l x) :=
  State.SameRecords.moves ⟨by simp, by simp, by simp, by simp, by simp⟩

theorem Moves.setWriter (s : State) (w : WriterNo) (x : WriterSlot) : Moves s (s.setWriter w x) :=
  State.SameRecords.moves ⟨rfl, rfl, rfl, rfl, rfl⟩

theorem Moves.setProfile (s : State) (w : WriterNo) (x : Profile) : Moves s (s.setProfile w x) :=
  State.SameRecords.moves ⟨rfl, rfl, rfl, rfl, rfl⟩

theorem Moves.setGroupEntry (s : State) (g : GroupNo) (x : GroupEntry) : Moves s (s.setGroupEntry g x) :=
  State.SameRecords.moves ⟨rfl, rfl, rfl, rfl, rfl⟩

theorem Moves.setSafe (s : State) (x : SafeState) : Moves s (s.setSafe x) :=
  State.SameRecords.moves ⟨rfl, rfl, rfl, rfl, rfl⟩

theorem Moves.answered (a : Applied) : Moves a.2 (answered a) :=
  State.SameRecords.moves ⟨rfl, rfl, rfl, rfl, rfl⟩

theorem Moves.notifyWriter (s : State) (w : WriterNo) (n : Notice) : Moves s (s.notifyWriter w n) := by
  unfold State.notifyWriter
  split
  · exact Moves.setPort ..
  · exact .refl

theorem Moves.notifyOwner (s : State) (r : Record) (n : Notice) : Moves s (s.notifyOwner r n) := by
  unfold State.notifyOwner
  split
  · exact Moves.notifyWriter ..
  · exact .refl

theorem Moves.notifyBoth (s : State) (n : Notice) : Moves s (s.notifyBoth n) :=
  (Moves.setPort s .a _).trans (Moves.setPort _ .b _)

theorem Moves.closeCursor (s : State) (p : PortId) : Moves s (s.closeCursor p) :=
  Moves.setPort ..

theorem Moves.closeCursorOf (s : State) (p : PortId) (w : WriterNo) : Moves s (s.closeCursorOf p w) := by
  unfold State.closeCursorOf
  split
  · split
    · exact Moves.closeCursor ..
    · exact .refl
  · exact .refl

end Sys2Proof.Machine

namespace Sys2Proof.Machine

/-! ### What no change of a record touches (R11) -/

section
variable (r : Record)

theorem Record.sameEntry_afterLoss (a : Bool) : r.SameEntry (r.afterLoss a) := by
  rw [Record.afterLoss_eq]
  exact ⟨r.lossRow_tag a, r.lossRow_publish a, r.lossRow_sequence a⟩

theorem Record.sameEntry_committed : r.SameEntry r.committed := by
  rw [Record.committed_eq]
  exact ⟨r.commitRow_tag, r.commitRow_publish, r.commitRow_sequence⟩

theorem Record.sameEntry_refresh : r.SameEntry r.refresh := by
  unfold Record.refresh
  split
  · exact ⟨rfl, rfl, rfl⟩
  · split <;> exact ⟨rfl, rfl, rfl⟩

theorem Record.sameEntry_unlatched (a : Bool) : r.SameEntry (r.unlatched a) := by
  unfold Record.unlatched
  split <;> exact ⟨rfl, rfl, rfl⟩

theorem Record.sameEntry_withFallback (v : Value) : r.SameEntry (r.withFallback v) := by
  unfold Record.withFallback
  split <;> exact ⟨rfl, rfl, rfl⟩

theorem Record.sameEntry_freshnessExpired : r.SameEntry r.freshnessExpired := by
  unfold Record.freshnessExpired
  split <;> exact ⟨rfl, rfl, rfl⟩

theorem Record.sameEntry_holdExpired (a : Bool) : r.SameEntry (r.holdExpired a) := by
  unfold Record.holdExpired
  split
  · split <;> exact ⟨rfl, rfl, rfl⟩
  · split <;> exact ⟨rfl, rfl, rfl⟩

end

/-! ### What keeps the laws of one record (R2, R3, R105) -/

@[simp] theorem countdownFor_eq_stopped (code : Nat) : countdownFor code = .stopped ↔ code = 0 := by
  simp [countdownFor]

@[simp] theorem holdTimerFor_ne_stopped (code : Fin 4) : holdTimerFor code ≠ .stopped := by
  simp [holdTimerFor]

/-- The laws of a record, field by field. -/
theorem Record.sound_iff (r : Record) :
    r.sound ↔
      (r.lower.toInt ≤ r.upper.toInt ∧ within r.lower r.upper r.fallback ∧
        (∀ v, r.live = some v → within r.lower r.upper v) ∧
        ∀ e, r.staged = some e → within r.lower r.upper e.value) ∧
      ((r.live = none ↔ r.state = .dormant) ∧ (r.holdCause = none ↔ r.state ≠ .held) ∧
        (r.refreshed = none ↔ r.holdCause ≠ some .expiry) ∧
        (r.state = .held ∨ r.state = .latched → r.live = some r.fallback) ∧
        (r.owner = none → r.staged = none)) ∧
      (r.countdown ≠ .stopped ↔ r.state = .live ∧ r.owner ≠ none ∧ r.freshnessCode ≠ 0) ∧
        (r.holdTimer ≠ .stopped ↔ r.holdCause = some .expiry) ∧
        (r.holdCause = some .expiry → r.owner ≠ none) :=
  Iff.rfl

section
variable {r : Record}

theorem Record.sound_claimUnowned (h : r.sound) (ho : r.owner = none) (w : WriterNo) (prec : Nat) :
    Record.sound { r with owner := some w, precedence := prec, countdown := r.claimCountdown } := by
  rw [Record.sound_iff] at h ⊢
  by_cases hl : r.state = .live
  · simp only [Record.claimCountdown, if_pos hl]
    grind [countdownFor_eq_stopped]
  · simp only [Record.claimCountdown, if_neg hl]
    grind

theorem Record.sound_takenOver (h : r.sound) (w : WriterNo) (prec : Nat) : (r.takenOver w prec).sound := by
  rw [Record.sound_iff] at h ⊢
  by_cases hl : r.state = .live
  · simp only [Record.takenOver, Record.claimCountdown, if_pos hl]
    grind [countdownFor_eq_stopped]
  · simp only [Record.takenOver, Record.claimCountdown, if_neg hl]
    grind

theorem Record.sound_afterLoss (h : r.sound) (a : Bool) : (r.afterLoss a).sound := by
  rw [Record.sound_iff] at h ⊢
  rw [Record.afterLoss_eq]
  unfold Record.lossRow
  dsimp only
  split
  · grind
  · split <;> grind
  · grind

theorem Record.sound_refresh (h : r.sound) (ho : r.owner ≠ none) : r.refresh.sound := by
  rw [Record.sound_iff] at h ⊢
  unfold Record.refresh
  split
  · grind [countdownFor_eq_stopped]
  · split <;> grind

/-- The value a STAGE places lies within the limits (R69). -/
theorem Record.within_stagedFor (h : r.sound) {v : Value} {e : Staged} (he : r.stagedFor v = some e) :
    within r.lower r.upper e.value := by
  obtain ⟨⟨hlu, -⟩, -⟩ := h
  unfold Record.stagedFor at he
  grind

theorem Record.sound_staged (h : r.sound) (ho : r.owner ≠ none) {e : Staged} (he : within r.lower r.upper e.value) :
    Record.sound { r.refresh with staged := some e } := by
  rw [Record.sound_iff] at h ⊢
  unfold Record.refresh
  split
  · grind [countdownFor_eq_stopped]
  · split <;> grind

theorem Record.sound_unlatched (h : r.sound) (ho : r.owner ≠ none) (hl : r.state = .latched) (a : Bool) :
    (r.unlatched a).sound := by
  rw [Record.sound_iff] at h ⊢
  unfold Record.unlatched
  split
  · grind
  · grind [countdownFor_eq_stopped]

theorem Record.sound_withLimits (h : r.sound) {lower upper : Value} (hlu : lower.toInt ≤ upper.toInt)
    (hf : within lower upper r.fallback) (hl : ∀ v, r.live = some v → within lower upper v)
    (hs : ∀ e, r.staged = some e → within lower upper e.value) :
    Record.sound { r with lower := lower, upper := upper } :=
  ⟨⟨hlu, hf, hl, hs⟩, h.2⟩

theorem Record.sound_withFallback (h : r.sound) {v : Value} (hv : within r.lower r.upper v) :
    (r.withFallback v).sound := by
  rw [Record.sound_iff] at h ⊢
  unfold Record.withFallback
  split <;> grind

theorem Record.sound_supervised (h : r.sound) (v : Supervision) : (r.supervised v).sound := by
  rw [Record.sound_iff] at h ⊢
  by_cases hl : r.state = .live ∧ r.owner ≠ none
  · simp only [Record.supervised, if_pos hl]
    grind [countdownFor_eq_stopped]
  · simp only [Record.supervised, if_neg hl]
    grind

theorem Record.sound_committed (h : r.sound) : r.committed.sound := by
  rw [Record.sound_iff] at h ⊢
  unfold Record.committed
  split
  · grind [countdownFor_eq_stopped]
  · grind
  · exact h

theorem Record.sound_freshnessExpired (h : r.sound) (hl : r.state = .live) (hc : r.countdown ≠ .stopped) :
    r.freshnessExpired.sound := by
  rw [Record.sound_iff] at h ⊢
  unfold Record.freshnessExpired
  split
  · grind [holdTimerFor_ne_stopped]
  · grind

theorem Record.sound_holdExpired (h : r.sound) (hc : r.holdCause = some .expiry) (a : Bool) :
    (r.holdExpired a).sound := by
  rw [Record.sound_iff] at h ⊢
  unfold Record.holdExpired
  split
  · split
    · grind
    · grind [countdownFor_eq_stopped]
  · split
    · grind [holdTimerFor_ne_stopped]
    · grind

theorem Record.sound_heldForSafe (h : r.sound) (hl : r.state = .live) : r.heldForSafe.sound := by
  rw [Record.sound_iff] at h ⊢
  unfold Record.heldForSafe
  grind

theorem Record.sound_releasedFromSafe (h : r.sound) (hc : r.holdCause = some .safe) : r.releasedFromSafe.sound := by
  rw [Record.sound_iff] at h ⊢
  by_cases ho : r.owner ≠ none
  · simp only [Record.releasedFromSafe, if_pos ho]
    grind [countdownFor_eq_stopped]
  · simp only [Record.releasedFromSafe, if_neg ho]
    grind

theorem Timer.tick_eq_stopped (x : Timer) : x.tick = .stopped ↔ x = .stopped := by
  cases x <;> simp [Timer.tick]

theorem HoldTimer.tick_eq_stopped (x : HoldTimer) : x.tick = .stopped ↔ x = .stopped := by
  cases x <;> simp [HoldTimer.tick]

theorem Transmission.tick_eq_stopped (x : Transmission) : x.tick = .stopped ↔ x = .stopped := by
  cases x <;> simp [Transmission.tick]

theorem Record.sound_tick (h : r.sound) :
    Record.sound { r with countdown := r.countdown.tick, holdTimer := r.holdTimer.tick } := by
  rw [Record.sound_iff] at h ⊢
  simpa only [ne_eq, Timer.tick_eq_stopped, HoldTimer.tick_eq_stopped] using h

end

/-- The record a CREATE writes meets its laws once its value check passes too (R17, R18). -/
theorem createRecord?_sound {tag : Word16} {group : Byte} {lower upper fallback : Value} {clamp publish : Byte}
    {freshness : Word16} {holdPolicy holdPeriod orphan : Byte} {r : Record}
    (hr : createRecord? tag group lower upper fallback clamp publish freshness holdPolicy holdPeriod orphan = some r)
    (hv : within lower upper fallback) : r.sound ∧ r.tag = tag := by
  unfold createRecord? at hr
  split at hr
  · split at hr
    · cases hr
      refine ⟨⟨⟨?_, hv, ?_, ?_⟩, ?_, ?_⟩, rfl⟩
      all_goals simp [*, Record.fieldsFitState, Record.timersFitState]
    · cases hr
  · cases hr
end Sys2Proof.Machine

namespace Sys2Proof.Machine

/-! ### The shared operations are made of moves -/

theorem State.slot_lowerOwner (s : State) (owner : Option WriterNo) (i : SlotNo) :
    (s.lowerOwner owner).slot i = s.slot i := by
  rw [State.lowerOwner_eq]; rfl

theorem Moves.lowerOwner (s : State) (owner : Option WriterNo) : Moves s (s.lowerOwner owner) := by
  rw [State.lowerOwner_eq]
  exact State.SameRecords.moves ⟨rfl, rfl, rfl, rfl, rfl⟩

theorem Moves.loseOwner {s : State} {i : SlotNo} {r : Record} (h : s.slot i = .holding r) :
    Moves s (s.loseOwner i r) := by
  unfold State.loseOwner
  split
  · exact (Move.retire h).moves
  · exact (Moves.lowerOwner s r.owner).tail <|
      .change ((s.slot_lowerOwner r.owner i).trans h) (r.sameEntry_afterLoss _) (Record.sound_afterLoss · _)

theorem Moves.loseOwnerAt (s : State) (i : SlotNo) : Moves s (s.loseOwnerAt i) := by
  unfold State.loseOwnerAt
  split
  · exact Moves.loseOwner ‹_›
  · exact .refl

theorem Moves.retireSlot (s : State) (i : SlotNo) : Moves s (s.retireSlot i) := by
  unfold State.retireSlot
  split
  · exact (Move.retire ‹_›).moves
  · exact .refl

theorem Moves.dismissWriter (s : State) (w : WriterNo) : Moves s (s.dismissWriter w) := by
  unfold State.dismissWriter
  refine (Moves.foldl Moves.loseOwnerAt (s.ownedSlots w) s).trans (.trans ?_ (Moves.setWriter ..))
  split
  · exact Moves.closeCursorOf ..
  · exact .refl

theorem Moves.clearTable (s : State) : Moves s s.clearTable :=
  (Moves.foldl Moves.retireSlot s.indexedSlots s).trans ((Moves.closeCursor ..).trans (Moves.closeCursor ..))

theorem Moves.commitSlot (target : CommitTarget) (s : State) (i : SlotNo) : Moves s (s.commitSlot target i) := by
  unfold State.commitSlot
  split
  · split
    · exact Moves.change _ ‹_› (Record.sameEntry_committed _) Record.sound_committed
    · exact .refl
  · exact .refl

theorem Moves.commitGroup (target : CommitTarget) (s : State) (g : GroupNo) : Moves s (s.commitGroup target g) := by
  unfold State.commitGroup
  split
  · exact Moves.setGroupEntry ..
  · exact .refl

theorem Moves.commit (s : State) (target : CommitTarget) : Moves s (s.commit target) :=
  (Moves.foldl (Moves.commitSlot target) allSlots s).trans (Moves.foldl (Moves.commitGroup target) allGroups _)

/-! ### The checks of an operation -/

theorem Moves.require {s : State} {c : Prop} [Decidable c] {status : Status} {next : Applied}
    (h : c → Moves s next.2) : Moves s (require c status s next).2 := by
  unfold Machine.require
  split
  · exact h ‹_›
  · exact .refl

theorem Moves.admitted {s : State} {p : PortId} {w : WriterNo} {next : Applied} (h : Moves s next.2) :
    Moves s (admitted p w s next).2 :=
  .require fun _ => .require fun _ => h

/-- The slot that the tag lookup finds holds the record. -/
theorem State.slot_of_find {s : State} {tag : Word16} {i : SlotNo} {r : Record} (h : s.find tag = some (i, r)) :
    s.slot i = .holding r := by
  unfold State.find at h
  split at h
  · cases h
  · split at h
    · cases h; assumption
    · cases h

theorem Moves.onRecord {s : State} {tag : Word16} {next : SlotNo → Record → Applied}
    (h : ∀ i r, s.slot i = .holding r → Moves s (next i r).2) : Moves s (onRecord tag s next).2 := by
  unfold Machine.onRecord
  split
  · exact .refl
  · exact h _ _ (State.slot_of_find ‹_›)

theorem Moves.onOwned {s : State} {p : PortId} {w : WriterNo} {tag : Word16} {next : SlotNo → Record → Applied}
    (h : ∀ i r, s.slot i = .holding r → r.owner = some w → Moves s (next i r).2) :
    Moves s (onOwned p w tag s next).2 :=
  .admitted <| .require fun _ => .require fun _ => .onRecord fun i r hs => .require (h i r hs)

theorem Moves.onShaped {s : State} {p : PortId} {w : WriterNo} {tag : Word16} {operands : Prop} [Decidable operands]
    {next : SlotNo → Record → Applied} (h : operands → ∀ i r, s.slot i = .holding r → Moves s (next i r).2) :
    Moves s (onShaped p w tag operands s next).2 :=
  .admitted <| .require fun _ => .require fun ho => .onRecord fun i r hs => .require fun _ => h ho.2 i r hs

/-! ### The operations (chapters 1 to 5) -/

section
variable (p : PortId) (w : WriterNo) (s : State)

theorem Moves.opAdmit : Moves s (opAdmit p w s).2 :=
  .require fun _ => Moves.setWriter ..

theorem Moves.opDismiss (target : Byte) : Moves s (opDismiss p w target s).2 := by
  refine .admitted <| .require fun _ => ?_
  split
  · exact .refl
  · exact .require fun _ => Moves.dismissWriter ..

theorem Moves.opSetProfile (target rights ceiling : Byte) (quota : Word16) :
    Moves s (opSetProfile p w target rights ceiling quota s).2 := by
  refine .admitted <| .require fun _ => ?_
  split
  · exact .require fun _ => .require fun _ => Moves.setProfile ..
  · exact .refl

theorem Moves.opReadProfile (target : Byte) : Moves s (opReadProfile p w target s).2 := by
  refine .admitted ?_
  split <;> exact .refl

theorem Moves.opCreate (tag : Word16) (group : Byte) (lower upper fallback : Value) (clamp publish : Byte)
    (freshness : Word16) (holdPolicy holdPeriod orphan : Byte) :
    Moves s
      (opCreate p w tag group lower upper fallback clamp publish freshness holdPolicy holdPeriod orphan s).2 := by
  refine .admitted <| .require fun _ => ?_
  split
  · exact .refl
  next r hr =>
    refine .require fun hv => .require fun hl => ?_
    obtain ⟨hsound, rfl⟩ := createRecord?_sound hr hv
    split
    · exact .refl
    next i hi =>
      have hfree : s.slot i = .free := by simpa using List.find?_some hi
      exact (Move.create hfree hl hsound).moves

theorem Moves.opRetire (tag : Word16) : Moves s (opRetire p w tag s).2 :=
  .admitted <| .require fun _ => .require fun _ => .onRecord fun _ _ hs => .require fun _ => (Move.retire hs).moves

theorem Moves.opRead (tag : Word16) : Moves s (opRead p w tag s).2 :=
  .admitted <| .require fun _ => .onRecord fun _ _ _ => .refl

theorem Moves.opClearTable : Moves s (opClearTable p w s).2 :=
  .admitted <| .require fun _ => .require fun _ => Moves.clearTable s

theorem Moves.claimUnowned {s : State} {i : SlotNo} {r : Record} (hs : s.slot i = .holding r) (ho : r.owner = none)
    (w : WriterNo) (prec : Nat) : Moves s (s.claimUnowned i r w prec) :=
  (Moves.setWriter s w _).tail <|
    .change (s := s.raiseOwned w) hs ⟨rfl, rfl, rfl⟩ fun h => Record.sound_claimUnowned h ho w prec

theorem Moves.reclaim {s : State} {i : SlotNo} {r : Record} (hs : s.slot i = .holding r) (prec : Nat) :
    Moves s (s.reclaim i r prec) :=
  Moves.change { r with precedence := prec } hs ⟨rfl, rfl, rfl⟩ id

theorem Moves.takeOver {s : State} {i : SlotNo} {r : Record} (hs : s.slot i = .holding r) (old w : WriterNo)
    (prec : Nat) : Moves s (s.takeOver i r old w prec) :=
  (Moves.setWriter s old _).trans <| (Moves.setWriter (s.lowerOwned old) w _).trans <|
    (Moves.change (s := (s.lowerOwned old).raiseOwned w) (r.takenOver w prec) hs ⟨rfl, rfl, rfl⟩
      (Record.sound_takenOver · w prec)).trans <| Moves.notifyWriter ..

theorem Moves.opClaim (tag : Word16) (precedence : Byte) : Moves s (opClaim p w tag precedence s).2 := by
  refine .admitted <| .require fun _ => .require fun _ => .require fun _ => .onRecord fun i r hs => ?_
  split
  · exact .require fun _ => Moves.claimUnowned hs ‹_› ..
  · split
    · exact Moves.reclaim hs _
    · split
      · exact .refl
      · split
        · exact .refl
        · exact .require fun _ => Moves.takeOver hs ..

theorem Moves.opRelease (tag : Word16) : Moves s (opRelease p w tag s).2 :=
  .admitted <| .require fun _ => .onRecord fun _ _ hs => .require fun _ => Moves.loseOwner hs

theorem Moves.opStage (tag : Word16) (value : Value) : Moves s (opStage p w tag value s).2 := by
  refine .onOwned fun i r hs ho => ?_
  split
  · exact .refl
  next e he =>
    have entry := r.sameEntry_refresh
    exact Moves.change { r.refresh with staged := some e } hs ⟨entry.tag, entry.publish, entry.sequence⟩ fun h =>
      Record.sound_staged h (by simp [ho]) (Record.within_stagedFor h he)

theorem Moves.opTouch (tag : Word16) : Moves s (opTouch p w tag s).2 :=
  .onOwned fun _ r hs ho => Moves.change _ hs r.sameEntry_refresh (Record.sound_refresh · (by simp [ho]))

theorem Moves.opUnlatch (tag : Word16) : Moves s (opUnlatch p w tag s).2 :=
  .onOwned fun _ r hs ho => .require fun hl =>
    Moves.change _ hs (r.sameEntry_unlatched _) (Record.sound_unlatched · (by simp [ho]) hl _)

theorem within_of_not_outside {lower upper v : Value} (h : outside lower upper v = false) : within lower upper v := by
  simpa [outside] using h

theorem Moves.opSetLimits (tag : Word16) (lower upper : Value) :
    Moves s (opSetLimits p w tag lower upper s).2 := by
  refine .onShaped fun hlu i r hs => ?_
  dsimp only
  split
  · exact .refl
  next hout =>
    simp only [Bool.or_eq_true, not_or, Bool.not_eq_true, Option.any_eq_false] at hout
    obtain ⟨⟨hf, hl⟩, hg⟩ := hout
    exact Moves.change { r with lower := lower, upper := upper } hs ⟨rfl, rfl, rfl⟩ fun h =>
      Record.sound_withLimits h hlu (within_of_not_outside hf)
        (fun v hv => within_of_not_outside (by simpa using hl v hv))
        (fun e he => within_of_not_outside (by simpa using hg e he))

theorem Moves.opSetFallback (tag : Word16) (value : Value) : Moves s (opSetFallback p w tag value s).2 :=
  .onShaped fun _ _ r hs => .require fun hv =>
    Moves.change _ hs (r.sameEntry_withFallback _) (Record.sound_withFallback · hv)

theorem Moves.opSetSupervision (tag freshness : Word16) (holdPolicy holdPeriod orphan : Byte) :
    Moves s (opSetSupervision p w tag freshness holdPolicy holdPeriod orphan s).2 := by
  unfold Machine.opSetSupervision
  split
  · exact .onShaped fun _ _ _ _ => .refl
  · exact .onShaped fun _ _ _ hs => Moves.change _ hs ⟨rfl, rfl, rfl⟩ (Record.sound_supervised · _)

theorem Moves.opSetGroup (tag : Word16) (group : Byte) : Moves s (opSetGroup p w tag group s).2 := by
  unfold Machine.opSetGroup
  split
  · exact .onShaped fun _ _ _ _ => .refl
  next g _ =>
    exact .onShaped fun _ _ r hs => Moves.change { r with group := g } hs ⟨rfl, rfl, rfl⟩ id

theorem Moves.opCommit (group : Byte) : Moves s (opCommit p w group s).2 := by
  refine .admitted <| .require fun _ => ?_
  split
  · exact .refl
  · split
    · exact Moves.setSafe ..
    · exact Moves.commit ..

theorem Moves.opSetCycle (group period : Byte) : Moves s (opSetCycle p w group period s).2 := by
  refine .admitted <| .require fun _ => ?_
  split
  · exact .refl
  · exact Moves.setGroupEntry ..

theorem Moves.opSetTrigger (line enabled group : Byte) : Moves s (opSetTrigger p w line enabled group s).2 := by
  refine .admitted <| .require fun _ => ?_
  split
  · exact Moves.setTrigger ..
  · exact .refl

theorem Moves.opReadGroup (group : Byte) : Moves s (opReadGroup p w group s).2 := by
  refine .admitted ?_
  split <;> exact .refl

/-! ### The reports of a port (chapter 9) -/

theorem Moves.walk (c : Cursor) : Moves s (walk p c s).2 :=
  Moves.setPort ..

theorem Moves.opScan (stateSet owner group : Byte) : Moves s (opScan p w stateSet owner group s).2 := by
  refine .admitted ?_
  split
  · exact .refl
  · exact Moves.walk ..

theorem Moves.opScanNext : Moves s (opScanNext p w s).2 := by
  refine .admitted ?_
  split
  · exact .refl
  · exact .require fun _ => Moves.walk ..

theorem Moves.opPoll : Moves s (opPoll p w s).2 :=
  .admitted (Moves.setPort ..)

theorem Moves.opStatus : Moves s (opStatus p w s).2 :=
  .admitted (Moves.setSafe ..)

end
end Sys2Proof.Machine

namespace Sys2Proof.Machine

/-! ### The laws of the link and its queue -/

/-- The laws of the link, its queue and its frame in flight, among VACATING slots (R14, R124, R126, R127, R144). -/
structure Link.Lawful (x : Link) (vacating : SlotNo → Bool) : Prop where
  flying : x.inFlight ≠ none ↔ x.state = .sending ∨ x.state = .awaitingAck
  enabled : x.settings.enable = true ↔ x.state ≠ .off
  transmission : x.transmission ≠ .stopped ↔ x.state = .sending
  ackTimer : x.ackTimer ≠ .stopped ↔ x.state = .awaitingAck
  noted : x.noted = true → x.state = .sending ∧ ∀ f, x.inFlight = some f → f.retries ≠ 0
  off : x.state = .off → x.queue = [] ∧ x.openByte = none ∧ ∀ i, vacating i = false
  queue : x.queue.Pairwise (fun a b => a.slot ≠ b.slot)
  awaited : ∀ i, vacating i = true ↔
    (∃ e ∈ x.queue, e.slot = i ∧ e.kind = .retire) ∨
      ∃ f, x.inFlight = some f ∧ f.entry.slot = i ∧ f.entry.kind = .retire
  single : ∀ f, x.inFlight = some f → f.entry.kind = .retire → ∀ e ∈ x.queue, e.slot ≠ f.entry.slot

/-- Which slots are VACATING. -/
def State.vacatingSlots (s : State) (i : SlotNo) : Bool :=
  (s.slot i).isVacating

theorem State.publicationLaws_iff (s : State) : s.publicationLaws ↔ s.link.Lawful s.vacatingSlots := by
  unfold State.publicationLaws State.linkLaw State.queueLaw State.vacatingLaw State.inFlightLaw State.retireAwaited
  constructor
  · rintro ⟨⟨flying, enabled, transmission, ackTimer, noted, off⟩, queue, awaited, single⟩
    exact ⟨flying, enabled, transmission, ackTimer, noted, off, queue, awaited, fun f hf hk => by
      simpa [State.pendingAt] using single f hf hk⟩
  · rintro ⟨flying, enabled, transmission, ackTimer, noted, off, queue, awaited, single⟩
    exact ⟨⟨flying, enabled, transmission, ackTimer, noted, off⟩, queue, awaited, fun f hf hk => by
      simpa [State.pendingAt] using single f hf hk⟩

section
variable {x : Link} {v : SlotNo → Bool}

theorem Link.Lawful.send (h : x.Lawful v) (hs : x.state = .idle) {e : Entry} {rest : List Entry}
    (hq : x.queue = e :: rest) (frame : PubFrame) (number : Byte) (rate : BitRate) :
    Link.Lawful { x with
      state := .sending, queue := rest, inFlight := some { frame := frame, entry := e, retries := 0 },
      nextNumber := number, noted := false, transmission := transmissionAt rate } v := by
  obtain ⟨flying, enabled, transmission, ackTimer, noted, off, queue, awaited, single⟩ := h
  simp only [hs, hq, List.pairwise_cons, transmissionAt, List.mem_cons] at *
  constructor
  case queue => exact queue.2
  case single =>
    rintro f ⟨⟩ - d hd
    exact (queue.1 d hd).symm
  all_goals grind

theorem Link.Lawful.await (h : x.Lawful v) (hs : x.state = .sending) (hn : x.noted = false) (time : Nat) :
    Link.Lawful { x with state := .awaitingAck, ackTimer := .running time, transmission := .stopped } v := by
  obtain ⟨flying, enabled, transmission, ackTimer, noted, off, queue, awaited, single⟩ := h
  constructor
  all_goals grind

theorem Link.Lawful.complete (h : x.Lawful v) {f : InFlight} (hf : x.inFlight = some f) {u : SlotNo → Bool}
    (hu : ∀ i, u i = true ↔ v i = true ∧ ¬ (f.entry.kind = .retire ∧ f.entry.slot = i)) :
    Link.Lawful { x with
      state := .idle, inFlight := none, noted := false, ackTimer := .stopped, transmission := .stopped } u := by
  obtain ⟨flying, enabled, transmission, ackTimer, noted, off, queue, awaited, single⟩ := h
  constructor
  case awaited =>
    intro i
    rw [hu, awaited]
    grind
  all_goals grind

theorem Link.Lawful.note (h : x.Lawful v) (hs : x.state = .sending) {f : InFlight} (hf : x.inFlight = some f)
    (hr : f.retries ≠ 0) : Link.Lawful { x with noted := true } v :=
  { h with noted := fun _ => ⟨hs, by simp [hf, hr]⟩ }

theorem Link.Lawful.retry (h : x.Lawful v) {f : InFlight} (hf : x.inFlight = some f) (rate : BitRate) :
    Link.Lawful { x with
      state := .sending, inFlight := some { f with retries := f.retries + 1 }, ackTimer := .stopped,
      transmission := transmissionAt rate } v := by
  obtain ⟨flying, enabled, transmission, ackTimer, noted, off, queue, awaited, single⟩ := h
  simp only [hf, transmissionAt] at *
  constructor
  all_goals grind

theorem Link.Lawful.down (h : x.Lawful v) {f : InFlight} (hf : x.inFlight = some f) {q : List Entry}
    (hq : q = x.queue ∧ f.entry.kind = .update ∨
      q = f.entry :: x.queue ∧ ∀ e ∈ x.queue, e.slot ≠ f.entry.slot) :
    Link.Lawful { x with
      state := .down, queue := q, inFlight := none, noted := false, ackTimer := .stopped,
      transmission := .stopped } v := by
  obtain ⟨flying, enabled, transmission, ackTimer, noted, off, queue, awaited, single⟩ := h
  simp only [hf] at *
  rcases hq with ⟨rfl, hk⟩ | ⟨rfl, hn⟩
  · constructor
    all_goals grind
  · constructor
    case queue => exact List.pairwise_cons.mpr ⟨fun e he => (hn e he).symm, queue⟩
    all_goals grind

theorem Link.Lawful.openByte (h : x.Lawful v) (hs : x.state ≠ .off) (b : Option OpenByte) :
    Link.Lawful { x with openByte := b } v :=
  { h with off := fun ho => absurd ho hs }

theorem Link.Lawful.start (h : x.Lawful v) (hs : x.state = .down) : Link.Lawful { x with state := .idle } v := by
  obtain ⟨flying, enabled, transmission, ackTimer, noted, off, queue, awaited, single⟩ := h
  constructor
  all_goals grind

theorem Link.Lawful.flush (h : x.Lawful v) (hs : x.state ≠ .off) {u : SlotNo → Bool}
    (hu : ∀ i, u i = true ↔ v i = true ∧ ¬ ∃ e ∈ x.queue, e.slot = i ∧ e.kind = .retire) :
    Link.Lawful { x with queue := [] } u := by
  obtain ⟨flying, enabled, transmission, ackTimer, noted, off, queue, awaited, single⟩ := h
  constructor
  case awaited =>
    intro i
    rw [hu, awaited]
    grind
  all_goals grind

/-- UPDATE entries for other slots than those VACATING and those with a pending entry join the tail. -/
theorem Link.Lawful.append (h : x.Lawful v) (hs : x.state ≠ .off) {q : List Entry}
    (hq : q.Pairwise (fun a b => a.slot ≠ b.slot))
    (hn : ∀ e ∈ q, e.kind = .update ∧ v e.slot = false ∧ ∀ d ∈ x.queue, d.slot ≠ e.slot) :
    Link.Lawful { x with queue := x.queue ++ q } v := by
  obtain ⟨flying, enabled, transmission, ackTimer, noted, off, queue, awaited, single⟩ := h
  constructor
  case queue => exact List.pairwise_append.mpr ⟨queue, hq, fun d hd e he => (hn e he).2.2 d hd⟩
  all_goals grind

theorem Link.Lawful.configure (h : x.Lawful v) (new : LinkSettings) (hn : new.enable = true ↔ x.state ≠ .off) :
    Link.Lawful { x with settings := new } v :=
  { h with enabled := hn }

theorem Link.Lawful.enable (h : x.Lawful v) (hs : x.state = .off) (new : LinkSettings) (hn : new.enable = true) :
    Link.Lawful { x with settings := new, state := .idle, queue := [], inFlight := none, nextNumber := 0 } v := by
  obtain ⟨flying, enabled, transmission, ackTimer, noted, off, queue, awaited, single⟩ := h
  constructor
  all_goals grind

end

/-- Disabling leaves nothing pending, in flight or VACATING (R144). -/
theorem Link.Lawful.disable (x : Link) (new : LinkSettings) (hn : new.enable = false) (u : SlotNo → Bool)
    (hu : ∀ i, u i = false) :
    Link.Lawful { x with
      settings := new, state := .off, queue := [], inFlight := none, noted := false, ackTimer := .stopped,
      transmission := .stopped, openByte := none } u := by
  constructor <;> simp [hn, hu]

theorem Link.lawful_tick {x : Link} {v : SlotNo → Bool} (h : x.Lawful v) :
    Link.Lawful { x with
      ackTimer := x.ackTimer.tick, transmission := x.transmission.tick,
      openByte := x.openByte.map OpenByte.tick } v :=
  { h with
    transmission := by simpa [Transmission.tick_eq_stopped] using h.transmission
    ackTimer := by simpa [Timer.tick_eq_stopped] using h.ackTimer
    off := by simpa using h.off }
end Sys2Proof.Machine

namespace Sys2Proof.Machine

/-! ### Entries handed to the queue (R12, R14, R126) -/

/-- A RETIRE entry handed over stands in the queue, and those of the other slots stay. -/
theorem mem_handOver_retire (q : List Entry) (i : SlotNo) (tag : Word16) (d : Entry) :
    d ∈ handOver q { slot := i, tag := tag, kind := .retire } ↔
      d ∈ q ∧ d.slot ≠ i ∨ d = { slot := i, tag := tag, kind := .retire } := by
  unfold handOver
  split
  next h =>
    obtain ⟨e, he, hi⟩ : ∃ e ∈ q, e.slot = i := by simpa using h
    simp only [List.mem_map]
    grind
  next h =>
    have hn : ∀ e ∈ q, e.slot ≠ i := by simpa using h
    rw [List.mem_append, List.mem_singleton]
    grind

theorem handOver_pairwise {q : List Entry} (h : q.Pairwise (fun a b => a.slot ≠ b.slot)) (e : Entry) :
    (handOver q e).Pairwise (fun a b => a.slot ≠ b.slot) := by
  unfold handOver
  split
  · split
    · exact h
    · have hslot : ∀ d : Entry, (if d.slot = e.slot then e else d).slot = d.slot := fun d => by split <;> simp [*]
      exact List.pairwise_map.mpr (by simpa only [hslot] using h)
  next hn =>
    refine List.pairwise_append.mpr ⟨h, List.pairwise_singleton .., fun d hd b hb => ?_⟩
    rw [List.mem_singleton.mp hb]
    simp at hn
    exact hn d hd

theorem Link.Lawful.handUpdate {x : Link} {v : SlotNo → Bool} (h : x.Lawful v) (hs : x.state ≠ .off) {i : SlotNo}
    (hi : v i = false) (tag : Word16) :
    Link.Lawful { x with queue := handOver x.queue { slot := i, tag := tag, kind := .update } } v := by
  unfold handOver
  split
  · exact h
  next hn =>
    refine h.append hs (List.pairwise_singleton ..) fun e he => ?_
    obtain rfl := List.mem_singleton.mp he
    exact ⟨rfl, hi, by simpa using hn⟩

theorem Link.Lawful.handRetire {x : Link} {v u : SlotNo → Bool} (h : x.Lawful v) (hs : x.state ≠ .off) {i : SlotNo}
    (hi : v i = false) (hu : ∀ j, u j = true ↔ j = i ∨ v j = true) (tag : Word16) :
    Link.Lawful { x with queue := handOver x.queue { slot := i, tag := tag, kind := .retire } } u := by
  obtain ⟨flying, enabled, transmission, ackTimer, noted, off, queue, awaited, single⟩ := h
  constructor
  case queue => exact handOver_pairwise queue _
  case awaited =>
    intro j
    rw [hu, awaited]
    by_cases hj : j = i
    · subst hj
      exact ⟨fun _ => .inl ⟨_, (mem_handOver_retire ..).mpr (.inr rfl), rfl, rfl⟩, fun _ => .inl rfl⟩
    · simp only [mem_handOver_retire]
      grind
  case single =>
    intro f hf hk e he
    rcases (mem_handOver_retire ..).mp he with ⟨hq, -⟩ | rfl
    · exact single f hf hk e hq
    · rintro rfl
      exact absurd ((awaited _).mpr (.inr ⟨f, hf, rfl, hk⟩)) (by simp [hi])
  all_goals grind

/-! ### Every move keeps the laws of the link -/

/-- Where one slot alone changes, and is VACATING neither before nor after, the same slots are VACATING. -/
theorem State.vacatingSlots_eq {s t : State} {i : SlotNo} (h : ∀ j, j ≠ i → t.slot j = s.slot j)
    (hs : (s.slot i).isVacating = false) (ht : (t.slot i).isVacating = false) : t.vacatingSlots = s.vacatingSlots := by
  funext j
  unfold State.vacatingSlots
  by_cases hj : j = i
  · rw [hj, hs, ht]
  · rw [h j hj]

theorem Slot.isVacating_of_holding {x : Slot} {r : Record} (h : x = .holding r) : x.isVacating = false := by
  simp [h, Slot.isVacating]

theorem State.SameRecords.keeps_publicationLaws {s t : State} (h : s.SameRecords t) (hs : s.publicationLaws) :
    t.publicationLaws := by
  have hv : t.vacatingSlots = s.vacatingSlots := funext fun i => by simp only [State.vacatingSlots, h.slot]
  rw [State.publicationLaws_iff] at hs ⊢
  rwa [hv, h.link]

theorem State.changeRecord_keeps_publicationLaws {s : State} {i : SlotNo} {r new : Record}
    (holds : s.slot i = .holding r) (entry : r.SameEntry new) (h : s.publicationLaws) :
    (s.changeRecord i r new).publicationLaws := by
  obtain ⟨⟨hi, hj, hq⟩, hrest⟩ := s.changeRecord_spec i r new entry.sequence entry.publish entry.tag
  generalize s.changeRecord i r new = t at *
  have hv := State.vacatingSlots_eq hj (Slot.isVacating_of_holding holds) (Slot.isVacating_of_holding hi)
  rw [State.publicationLaws_iff] at h ⊢
  rw [hv, hrest, hq]
  unfold State.updateEntry
  split
  next hd => exact h.handUpdate hd.2.2 (Slot.isVacating_of_holding holds) _
  · exact h

theorem State.retireRecord_keeps_publicationLaws {s : State} {i : SlotNo} {r : Record}
    (holds : s.slot i = .holding r) (h : s.publicationLaws) : (s.retireRecord i r).publicationLaws := by
  obtain ⟨⟨hi, hj, -, -, -, -, hq⟩, hrest⟩ := s.retireRecord_spec i r
  generalize s.retireRecord i r = t at *
  have hsi := Slot.isVacating_of_holding holds
  rw [State.publicationLaws_iff] at h ⊢
  unfold State.retireEntry at hq
  unfold State.retiredSlot at hi
  split at hq
  next hw =>
    rw [if_pos hw] at hi
    rw [hrest, hq]
    refine h.handRetire hw.2 hsi (fun j => ?_) _
    change (t.slot j).isVacating = true ↔ j = i ∨ (s.slot j).isVacating = true
    by_cases he : j = i
    · simp [he, hi, Slot.isVacating]
    · simp [he, hj j he]
  next hw =>
    rw [if_neg hw] at hi
    rw [State.vacatingSlots_eq hj hsi (by simp [hi, Slot.isVacating]), hrest, hq]
    exact h

theorem State.addRecord_slot (s : State) (i j : SlotNo) (r : Record) :
    (s.addRecord i r).slot j = if i = j then .holding r else s.slot j :=
  s.slot_setSlot i j (.holding r)

theorem State.addRecord_keeps_publicationLaws {s : State} {i : SlotNo} {r : Record} (free : s.slot i = .free)
    (h : s.publicationLaws) : (s.addRecord i r).publicationLaws := by
  have hv : (s.addRecord i r).vacatingSlots = s.vacatingSlots :=
    State.vacatingSlots_eq (i := i) (fun j hj => by simp [State.addRecord_slot, Ne.symm hj])
      (by simp [free, Slot.isVacating]) (by simp [State.addRecord_slot, Slot.isVacating])
  rw [State.publicationLaws_iff] at h ⊢
  rwa [hv]

@[simp] theorem Slot.isVacating_tick (x : Slot) : x.tick.isVacating = x.isVacating := by
  cases x <;> rfl

theorem State.tick_keeps_publicationLaws {s : State} (h : s.publicationLaws) : s.tick.publicationLaws := by
  have hv : s.tick.vacatingSlots = s.vacatingSlots := funext fun i => by simp [State.vacatingSlots]
  rw [State.publicationLaws_iff] at h ⊢
  rw [hv]
  exact Link.lawful_tick h

theorem State.reset_slot (i : SlotNo) : State.reset.slot i = .free := rfl

theorem State.reset_publicationLaws : State.reset.publicationLaws := by
  rw [State.publicationLaws_iff]
  have hv : State.reset.vacatingSlots = fun _ => false :=
    funext fun i => by rw [State.vacatingSlots, State.reset_slot, Slot.isVacating_free]
  rw [hv]
  constructor <;> simp [State.reset, Link.reset]

/-- After a reset the records and the link are those of the state after reset, whatever the lines' levels. -/
theorem State.sameRecords_afterReset (s : State) : State.reset.SameRecords s.afterReset :=
  ⟨rfl, rfl, rfl, rfl, rfl⟩

theorem Move.keeps_publicationLaws {s t : State} (m : Move s t) (h : s.publicationLaws) : t.publicationLaws := by
  cases m with
  | elsewhere same => exact same.keeps_publicationLaws h
  | change holds entry _ => exact State.changeRecord_keeps_publicationLaws holds entry h
  | retire holds => exact State.retireRecord_keeps_publicationLaws holds h
  | create free _ _ => exact State.addRecord_keeps_publicationLaws free h
  | link _ _ kept => exact kept h
  | tick => exact State.tick_keeps_publicationLaws h
  | reset => exact s.sameRecords_afterReset.keeps_publicationLaws State.reset_publicationLaws

/-! ### Every move keeps the laws of every record -/

/-- Every record of the table meets its laws. -/
def State.recordsSound (s : State) : Prop :=
  s.everyRecord Record.sound

theorem State.recordsSound_iff (s : State) : s.recordsSound ↔ s.limitsLaw ∧ s.shapeLaw :=
  ⟨fun h => ⟨fun i r hr => (h i r hr).1, fun i r hr => (h i r hr).2⟩,
    fun h i r hr => ⟨h.1 i r hr, h.2 i r hr⟩⟩

/-- Where one slot alone changes and any record there is sound, every record stays so. -/
theorem State.recordsSound_of_slot {s t : State} {i : SlotNo} (h : ∀ j, j ≠ i → t.slot j = s.slot j)
    (hi : ∀ r, t.slot i = .holding r → r.sound) (hs : s.recordsSound) : t.recordsSound := by
  intro j r hr
  by_cases hj : j = i
  · subst hj; exact hi r hr
  · exact hs j r (h j hj ▸ hr)

theorem State.retiredSlot_ne_holding (s : State) (r new : Record) : s.retiredSlot r ≠ .holding new := by
  unfold State.retiredSlot
  split <;> simp

theorem State.freeSlot_keeps_recordsSound (s : State) (i : SlotNo) (h : s.recordsSound) :
    (s.freeSlot i).recordsSound := by
  intro j r hr
  rw [State.freeSlot_slot] at hr
  split at hr
  · cases hr
  · exact h j r hr

theorem Move.keeps_recordsSound {s t : State} (m : Move s t) (h : s.recordsSound) : t.recordsSound := by
  cases m with
  | elsewhere same => exact fun i r hr => h i r (same.slot i ▸ hr)
  | @change i r new holds entry sound =>
    obtain ⟨⟨hi, hj, -⟩, -⟩ := s.changeRecord_spec i r new entry.sequence entry.publish entry.tag
    refine State.recordsSound_of_slot hj (fun r' hr' => ?_) h
    obtain rfl := Slot.holding.inj (hi.symm.trans hr')
    exact sound (h i r holds)
  | @retire i r holds =>
    obtain ⟨⟨hi, hj, -⟩, -⟩ := s.retireRecord_spec i r
    exact State.recordsSound_of_slot hj (fun r' hr' => absurd (hi.symm.trans hr') (s.retiredSlot_ne_holding r r')) h
  | @create i r _ _ sound =>
    refine State.recordsSound_of_slot (i := i) (fun j hj => by simp [State.addRecord_slot, Ne.symm hj])
      (fun r' hr' => ?_) h
    rw [State.addRecord_slot, if_pos rfl] at hr'
    exact Slot.holding.inj hr' ▸ sound
  | link freed x _ => exact freed.foldlRecOn State.freeSlot h fun u hu i _ => u.freeSlot_keeps_recordsSound i hu
  | tick =>
    intro i r hr
    rw [State.tick_slot] at hr
    cases hs : s.slot i with
    | holding r' =>
      rw [hs] at hr
      exact Slot.holding.inj hr ▸ Record.sound_tick (h i r' hs)
    | free => simp [hs, Slot.tick] at hr
    | vacating => simp [hs, Slot.tick] at hr
  | reset => exact fun i r hr => absurd hr (by simp [s.sameRecords_afterReset.slot, State.reset_slot])

end Sys2Proof.Machine

namespace Sys2Proof.Machine

/-! ### Every move keeps table, index and counts in agreement (R7, R8) -/

/-- R8 in terms of the tag a slot's record has. -/
theorem State.indexLaw_iff (s : State) :
    s.indexLaw ↔ s.tagIndex.Pairwise (fun a b => a.1 < b.1) ∧
      ∀ tag i, s.tagIndex.lookup tag = some i ↔ (s.slot i).tagged tag = true := by
  have key : ∀ (x : Slot) tag, (∃ r, x = .holding r ∧ r.tag = tag) ↔ x.tagged tag = true := fun x tag => by
    cases x <;> simp
  simp only [State.indexLaw, key]

/-- The index agrees with a table whose slots hold records of the same tags. -/
theorem State.indexLaw_of_tagged {s t : State} (hi : t.tagIndex = s.tagIndex)
    (ht : ∀ i tag, (t.slot i).tagged tag = (s.slot i).tagged tag) (h : s.indexLaw) : t.indexLaw := by
  rw [State.indexLaw_iff] at h ⊢
  simpa only [hi, ht] using h

theorem length_filter_cons (p : SlotNo → Bool) (i : SlotNo) (l : List SlotNo) :
    ((i :: l).filter p).length = (p i).toNat + (l.filter p).length := by
  cases h : p i
  · simp [h]
  · simp [h, Nat.add_comm]

/-- Counting the slots that pass a test, where one slot alone may pass it differently. -/
theorem length_filter_allSlots {p q : SlotNo → Bool} {i : SlotNo} (h : ∀ j, j ≠ i → q j = p j) :
    (allSlots.filter q).length + (p i).toNat = (allSlots.filter p).length + (q i).toNat := by
  obtain ⟨l, m, hl⟩ := List.append_of_mem (mem_allSlots i)
  have hnodup := allSlots_nodup
  rw [hl, List.nodup_middle, List.nodup_cons, List.mem_append, not_or] at hnodup
  obtain ⟨⟨hil, him⟩, -⟩ := hnodup
  have hfl : l.filter q = l.filter p := List.filter_congr fun j hj => h j fun e => hil (e ▸ hj)
  have hfm : m.filter q = m.filter p := List.filter_congr fun j hj => h j fun e => him (e ▸ hj)
  simp only [hl, List.filter_append, List.length_append, length_filter_cons, hfl, hfm]
  omega

theorem State.slot_of_write {s t : State} {i : SlotNo} {x : Slot} (h : t.table = s.table.write i x) (j : SlotNo) :
    t.slot j = if i = j then x else s.slot j := by
  rw [State.slot, h, Table.read_write]; rfl

/-- A slot written keeps the laws of the table where the index agrees and the counts move as that slot does. -/
theorem State.tableLaws_of_write {s t : State} {i : SlotNo} {x : Slot} (h : s.tableLaws)
    (htable : t.table = s.table.write i x) (hindex : t.indexLaw)
    (hfree : t.freeCount + (decide (s.slot i = .free)).toNat = s.freeCount + (decide (x = .free)).toNat)
    (hvac : t.vacatingCount + (s.slot i).isVacating.toNat = s.vacatingCount + x.isVacating.toNat) : t.tableLaws := by
  obtain ⟨table, -, hf, hv⟩ := h
  have hslot := State.slot_of_write htable
  have hf' := length_filter_allSlots (p := fun j => decide (s.slot j = .free)) (q := fun j => decide (t.slot j = .free))
    (i := i) fun j hne => by simp only [hslot, if_neg (Ne.symm hne)]
  have hv' := length_filter_allSlots (p := fun j => (s.slot j).isVacating) (q := fun j => (t.slot j).isVacating)
    (i := i) fun j hne => by simp only [hslot, if_neg (Ne.symm hne)]
  simp only [hslot i, if_true] at hf' hv'
  refine ⟨?_, hindex, ?_, ?_⟩
  · rw [State.tableLaw, htable]
    exact Table.wf_write table i x
  · omega
  · omega

theorem State.freeCount_pos {s : State} (h : s.countLaw) {i : SlotNo} (hi : s.slot i = .free) : 0 < s.freeCount := by
  rw [h.1]
  exact List.length_pos_of_mem (List.mem_filter.mpr ⟨mem_allSlots i, by simp [hi]⟩)

theorem State.vacatingCount_pos {s : State} (h : s.countLaw) {i : SlotNo} (hi : (s.slot i).isVacating = true) :
    0 < s.vacatingCount := by
  rw [h.2]
  exact List.length_pos_of_mem (List.mem_filter.mpr ⟨mem_allSlots i, hi⟩)

theorem State.SameRecords.keeps_tableLaws {s t : State} (h : s.SameRecords t) (hs : s.tableLaws) : t.tableLaws := by
  obtain ⟨table, index, count⟩ := hs
  refine ⟨?_, State.indexLaw_of_tagged h.index (by simp [h.slot]) index, ?_⟩
  · simpa [State.tableLaw, h.table] using table
  · simpa [State.countLaw, h.slot, h.freeCount, h.vacatingCount] using count

theorem State.changeRecord_keeps_tableLaws {s : State} {i : SlotNo} {r new : Record}
    (holds : s.slot i = .holding r) (entry : r.SameEntry new) (h : s.tableLaws) :
    (s.changeRecord i r new).tableLaws := by
  rw [s.changeRecord_eq i r new entry.sequence entry.publish entry.tag]
  refine State.tableLaws_of_write (i := i) (x := .holding (r.after new)) h rfl
    (State.indexLaw_of_tagged (s := s) rfl (fun j tag => ?_) h.2.1) ?_ ?_
  · by_cases hj : i = j
    · subst hj; simp [holds, Record.after, entry.tag]
    · simp [hj]
  · simp [holds]
  · simp [holds]

theorem State.retireRecord_table (s : State) (i : SlotNo) (r : Record) :
    (s.retireRecord i r).table = s.table.write i (s.retiredSlot r) := by
  unfold State.retireRecord State.vacate State.retiredSlot
  rw [State.lowerOwner_eq]
  dsimp only
  split
  · rw [State.handRetire_eq]; rfl
  · rfl

theorem State.tagged_retiredSlot (s : State) (r : Record) (tag : Word16) : (s.retiredSlot r).tagged tag = false := by
  unfold State.retiredSlot
  split <;> rfl

theorem State.retireRecord_keeps_indexLaw {s : State} {i : SlotNo} {r : Record} (holds : s.slot i = .holding r)
    (h : s.indexLaw) : (s.retireRecord i r).indexLaw := by
  obtain ⟨⟨hi, hj, hlookup, -⟩, hrest⟩ := s.retireRecord_spec i r
  rw [State.indexLaw_iff] at h ⊢
  obtain ⟨hrise, hindex⟩ := h
  refine ⟨?_, fun tag j => ?_⟩
  · rw [hrest]
    exact indexErase_pairwise r.tag hrise
  have hr : s.tagIndex.lookup r.tag = some i := (hindex r.tag i).mpr (by simp [holds])
  rw [hlookup]
  by_cases hji : j = i
  · subst hji
    rw [hi, State.tagged_retiredSlot]
    have hne : ∀ u, s.tagIndex.lookup u = some j → r.tag = u := fun u hu => by
      simpa [holds] using (hindex u j).mp hu
    grind
  · rw [hj j hji, ← hindex]
    grind

theorem State.retireRecord_keeps_tableLaws {s : State} {i : SlotNo} {r : Record} (holds : s.slot i = .holding r)
    (h : s.tableLaws) : (s.retireRecord i r).tableLaws := by
  obtain ⟨⟨-, -, -, -, hwaits, hgone, -⟩, -⟩ := s.retireRecord_spec i r
  have hcounts : (s.retireRecord i r).freeCount = s.freeCount + (decide (s.retiredSlot r = .free)).toNat ∧
      (s.retireRecord i r).vacatingCount = s.vacatingCount + (s.retiredSlot r).isVacating.toNat := by
    by_cases hw : s.waits r
    · have hx : s.retiredSlot r = .vacating r.tag r.sequence := if_pos hw
      simp only [hx, hwaits hw]; simp
    · have hx : s.retiredSlot r = .free := if_neg hw
      simp only [hx, hgone hw]; simp
  refine State.tableLaws_of_write h (State.retireRecord_table ..) (State.retireRecord_keeps_indexLaw holds h.2.1) ?_ ?_
  · simp [holds, hcounts.1]
  · simp [holds, Slot.isVacating, hcounts.2]

theorem State.addRecord_keeps_indexLaw {s : State} {i : SlotNo} {r : Record} (free : s.slot i = .free)
    (fresh : s.tagIndex.lookup r.tag = none) (h : s.indexLaw) : (s.addRecord i r).indexLaw := by
  rw [State.indexLaw_iff] at h ⊢
  obtain ⟨hrise, hindex⟩ := h
  refine ⟨indexInsert_pairwise r.tag i hrise, fun tag j => ?_⟩
  have hl : (s.addRecord i r).tagIndex.lookup tag = if tag = r.tag then some i else s.tagIndex.lookup tag :=
    indexInsert_lookup ..
  rw [hl, State.addRecord_slot]
  by_cases hj : i = j
  · subst hj
    have hne : s.tagIndex.lookup tag ≠ some i := fun hu => by
      simpa [free] using (hindex tag i).mp hu
    by_cases ht : tag = r.tag
    · simp [ht]
    · simp [ht, Ne.symm ht, hne]
  · rw [if_neg hj, ← hindex]
    by_cases ht : tag = r.tag
    · simp [ht, hj, fresh]
    · simp [ht]

theorem State.addRecord_keeps_tableLaws {s : State} {i : SlotNo} {r : Record} (free : s.slot i = .free)
    (fresh : s.tagIndex.lookup r.tag = none) (h : s.tableLaws) : (s.addRecord i r).tableLaws := by
  have ⟨_, index, count⟩ := h
  have hpos := State.freeCount_pos count free
  refine State.tableLaws_of_write (i := i) (x := .holding r) h rfl
    (State.addRecord_keeps_indexLaw free fresh index) ?_ ?_
  · have hcount : (s.addRecord i r).freeCount = s.freeCount - 1 := rfl
    simp only [hcount, free, decide_true, Bool.toNat_true, reduceCtorEq, decide_false, Bool.toNat_false]
    omega
  · simp only [free]
    rfl

theorem State.freeSlot_keeps_tableLaws (s : State) (i : SlotNo) (h : s.tableLaws) : (s.freeSlot i).tableLaws := by
  unfold State.freeSlot
  split
  next hv =>
    have ⟨_, index, count⟩ := h
    have hpos := State.vacatingCount_pos count hv
    have hx : s.slot i ≠ .free := fun hx => by simp [hx] at hv
    have htag : ∀ tag, (s.slot i).tagged tag = false := fun tag => by
      cases hs : s.slot i with
      | holding r => simp [hs] at hv
      | free => rfl
      | vacating => rfl
    refine State.tableLaws_of_write (i := i) (x := .free) h rfl
      (State.indexLaw_of_tagged (s := s) rfl (fun j tag => ?_) index) ?_ ?_
    · rw [State.slot_of_write (s := s) (i := i) (x := .free) rfl]
      by_cases hj : i = j
      · subst hj; simp [htag]
      · simp [hj]
    · simp [hx]
    · simp only [hv, Slot.isVacating_free, Bool.toNat_true, Bool.toNat_false]
      omega
  · exact h

theorem Table.wf_map {t : Table} (h : t.wf = true) {f : Slot → Slot} (hf : ∀ x, f x = .free → x = .free) :
    Table.wf (t.map fun e => (e.1, f e.2)) = true := by
  rw [Table.wf_iff] at h ⊢
  refine ⟨List.pairwise_map.mpr h.1, fun e he => ?_⟩
  obtain ⟨d, hd, rfl⟩ := List.mem_map.mp he
  exact fun hfree => h.2 d hd (hf _ hfree)

@[simp] theorem Slot.tick_eq_free (x : Slot) : x.tick = .free ↔ x = .free := by
  cases x <;> simp [Slot.tick]

theorem State.tick_keeps_tableLaws {s : State} (h : s.tableLaws) : s.tick.tableLaws := by
  obtain ⟨table, index, count⟩ := h
  refine ⟨Table.wf_map table fun x => (Slot.tick_eq_free x).mp,
    State.indexLaw_of_tagged (s := s) rfl (fun j tag => ?_) index, ?_⟩
  · rw [State.tick_slot]
    cases s.slot j <;> rfl
  · simpa [State.countLaw] using count

theorem State.reset_tableLaws : State.reset.tableLaws := by
  have hcount : (allSlots.filter fun _ => true).length = 256 := by simp [allSlots]
  refine ⟨Table.wf_reset, (State.indexLaw_iff _).mpr ⟨.nil, fun tag i => ?_⟩, ?_, ?_⟩
  · rw [State.reset_slot, Slot.tagged_free]
    simp [State.reset]
  · simp only [State.reset_slot, decide_true, hcount]; rfl
  · simp only [State.reset_slot, Slot.isVacating_free, List.filter_false]; rfl

theorem Move.keeps_tableLaws {s t : State} (m : Move s t) (h : s.tableLaws) : t.tableLaws := by
  cases m with
  | elsewhere same => exact same.keeps_tableLaws h
  | change holds entry _ => exact State.changeRecord_keeps_tableLaws holds entry h
  | retire holds => exact State.retireRecord_keeps_tableLaws holds h
  | create free fresh _ => exact State.addRecord_keeps_tableLaws free fresh h
  | link freed x _ => exact freed.foldlRecOn State.freeSlot h fun u hu i _ => u.freeSlot_keeps_tableLaws i hu
  | tick => exact State.tick_keeps_tableLaws h
  | reset => exact s.sameRecords_afterReset.keeps_tableLaws State.reset_tableLaws
end Sys2Proof.Machine

namespace Sys2Proof.Machine

/-! ### The link's events are made of moves (chapter 7) -/

theorem Moves.link {s : State} (freed : List SlotNo) (x : Link)
    (h : s.link.Lawful s.vacatingSlots → x.Lawful (freed.foldl State.freeSlot s).vacatingSlots) :
    Moves s ((freed.foldl State.freeSlot s).setLink x) :=
  (Move.link freed x fun hs => (State.publicationLaws_iff _).mpr (h (s.publicationLaws_iff.mp hs))).moves

theorem Moves.setLink {s : State} (x : Link) (h : s.link.Lawful s.vacatingSlots → x.Lawful s.vacatingSlots) :
    Moves s (s.setLink x) :=
  Moves.link [] x h

theorem Moves.sendEvent (s : State) : Moves s s.sendEvent := by
  unfold State.sendEvent
  split
  next e rest hs hq =>
    exact (Moves.setLink _ fun h => h.send hs hq ..).trans (State.SameRecords.moves ⟨rfl, rfl, rfl, rfl, rfl⟩)
  · exact .refl

theorem State.freeSlot_link (s : State) (i : SlotNo) : (s.freeSlot i).link = s.link := by
  rw [State.freeSlot_eq]

theorem State.vacatingSlots_freeSlot (s : State) (i j : SlotNo) :
    (s.freeSlot i).vacatingSlots j = true ↔ s.vacatingSlots j = true ∧ j ≠ i := by
  unfold State.vacatingSlots
  rw [State.freeSlot_slot]
  by_cases hj : j = i
  · subst hj; by_cases hv : (s.slot j).isVacating = true <;> simp [hv]
  · simp [hj, Ne.symm hj]

/-- Of the slots freed, none is VACATING, and the others are as they were. -/
theorem State.vacatingSlots_freeSlots (l : List SlotNo) (s : State) (j : SlotNo) :
    (l.foldl State.freeSlot s).vacatingSlots j = true ↔ s.vacatingSlots j = true ∧ j ∉ l := by
  induction l generalizing s with
  | nil => simp
  | cons i l ih => rw [List.foldl_cons, ih, State.vacatingSlots_freeSlot, List.mem_cons, not_or, and_assoc]

theorem State.freeSlots_link (l : List SlotNo) (s : State) : (l.foldl State.freeSlot s).link = s.link :=
  l.foldlRecOn (motive := fun u => u.link = s.link) State.freeSlot rfl fun u hu i _ => (u.freeSlot_link i).trans hu

theorem State.freeSlots_setLink (l : List SlotNo) (s : State) (x : Link) :
    l.foldl State.freeSlot (s.setLink x) = (l.foldl State.freeSlot s).setLink x := by
  induction l generalizing s with
  | nil => rfl
  | cons i l ih =>
    have step : (s.setLink x).freeSlot i = (s.freeSlot i).setLink x := by
      unfold State.freeSlot
      rw [State.slot_setLink]
      split <;> rfl
    rw [List.foldl_cons, List.foldl_cons, step, ih]

theorem Moves.completeFrame {s : State} {f : InFlight} (hf : s.link.inFlight = some f) :
    Moves s (s.completeFrame f) := by
  unfold State.completeFrame
  dsimp only
  split
  next hk =>
    rw [State.freeSlot_link]
    refine Moves.link [f.entry.slot] _ fun h => h.complete hf fun i => ?_
    rw [State.vacatingSlots_freeSlots, List.mem_singleton]
    grind
  next hk =>
    refine Moves.setLink _ fun h => h.complete hf fun i => ?_
    have hr : f.entry.kind ≠ .retire := fun hr => hk ⟨hr, by simpa [State.pendingAt] using h.single f hf hr⟩
    simp [hr]

/-- The entry of an abandoned frame is dropped only if it is an UPDATE, and otherwise heads a queue without its slot
(R136, step 2). -/
theorem State.returnedQueue_cases {s : State} (h : s.link.Lawful s.vacatingSlots) {f : InFlight}
    (hf : s.link.inFlight = some f) :
    s.returnedQueue f.entry = s.link.queue ∧ f.entry.kind = .update ∨
      s.returnedQueue f.entry = f.entry :: s.link.queue ∧ ∀ e ∈ s.link.queue, e.slot ≠ f.entry.slot := by
  unfold State.returnedQueue
  split
  next hp =>
    obtain ⟨e, he, hes⟩ := (s.pendingAt_iff _).mp hp
    refine .inl ⟨rfl, ?_⟩
    cases hk : f.entry.kind with
    | update => rfl
    | retire => exact absurd hes (h.single f hf hk e he)
  next hp =>
    split
    next hd => exact .inl ⟨rfl, hd.1⟩
    · exact .inr ⟨rfl, by simpa [State.pendingAt] using hp⟩

theorem Moves.failTransmission {s : State} {f : InFlight} (hf : s.link.inFlight = some f) :
    Moves s (s.failTransmission f) := by
  unfold State.failTransmission
  split
  · exact Moves.setLink _ fun h => h.retry hf _
  · exact (Moves.setLink _ fun h => h.down hf (State.returnedQueue_cases h hf)).trans (Moves.notifyBoth ..)

theorem Moves.endOfTransmission (s : State) : Moves s s.endOfTransmission := by
  unfold State.endOfTransmission
  split
  next f hs hf =>
    split
    · exact Moves.completeFrame hf
    next hn => exact Moves.setLink _ fun h => h.await hs (by simpa using hn) _
  · exact .refl

theorem Moves.ackTimerExpiry (s : State) : Moves s s.ackTimerExpiry := by
  unfold State.ackTimerExpiry
  split
  · exact Moves.failTransmission ‹_›
  · exact .refl

theorem Moves.judgeAck (s : State) (kind number : Byte) : Moves s (s.judgeAck kind number) := by
  unfold State.judgeAck
  split
  · exact .refl
  next f hf =>
    split
    · exact .refl
    split
    · split
      · exact Moves.completeFrame hf
      · split
        · exact Moves.failTransmission hf
        · exact .refl
    · split
      next hs hr => exact Moves.setLink _ fun h => h.note hs hf hr.1
      · exact .refl
    · exact .refl

theorem Moves.setOpenByte {s : State} (hs : s.link.state ≠ .off) (b : Option OpenByte) : Moves s (s.setOpenByte b) :=
  Moves.setLink _ fun h => h.openByte hs b

theorem Moves.acknowledgement (s : State) (kind number : Byte) : Moves s (s.acknowledgement kind number) := by
  unfold State.acknowledgement
  split
  · exact .refl
  · exact (Moves.setOpenByte ‹_› _).trans (Moves.judgeAck ..)

theorem Moves.receive (s : State) (r : Reception) (byte : Byte) (stopHigh : Bool) :
    Moves s (s.receive r byte stopHigh) := by
  unfold State.receive
  split
  · exact .refl
  next hs =>
    split
    · exact Moves.setOpenByte hs _
    · split
      · exact Moves.setOpenByte hs _
      · split
        · exact Moves.setOpenByte hs _
        · exact (Moves.setOpenByte hs _).trans (Moves.judgeAck ..)

theorem Moves.rxpByte (s : State) (byte : Byte) (stopHigh : Bool) (moment : RxpMoment) :
    Moves s (s.rxpByte byte stopHigh moment) := by
  unfold State.rxpByte
  split
  · unfold State.beginByte
    split
    · exact State.SameRecords.moves ⟨rfl, rfl, rfl, rfl, rfl⟩
    · exact .refl
  · exact (State.SameRecords.moves (s := s) (t := s.endByte) ⟨rfl, rfl, rfl, rfl, rfl⟩).trans (Moves.receive ..)

/-! ### The link operations -/

section
variable (p : PortId) (w : WriterNo) (s : State)

theorem Moves.opLinkStart : Moves s (opLinkStart p w s).2 :=
  .admitted <| .require fun _ => .require fun hs => Moves.setLink _ fun h => h.start hs

theorem Moves.flush {s : State} (hs : s.link.state ≠ .off) : Moves s s.flush := by
  unfold State.flush State.setQueue
  rw [State.freeSlots_link]
  refine Moves.link _ _ fun h => h.flush hs fun i => ?_
  rw [State.vacatingSlots_freeSlots]
  simp [State.retiringSlots, mem_allSlots, State.vacatingSlots]
  grind

theorem Moves.opLinkFlush : Moves s (opLinkFlush p w s).2 :=
  .admitted <| .require fun _ => .require fun hs => Moves.flush hs

theorem State.resyncEntry_eq_some {s : State} {i : SlotNo} {e : Entry} (h : s.resyncEntry i = some e) :
    e.slot = i ∧ e.kind = .update ∧ s.vacatingSlots i = false ∧ s.pendingAt i = false := by
  unfold State.resyncEntry at h
  split at h
  next r hr =>
    split at h
    next hp =>
      cases h
      exact ⟨rfl, rfl, Slot.isVacating_of_holding hr, hp.2.2⟩
    · cases h
  · cases h

theorem Moves.opResync : Moves s (opResync p w s).2 := by
  refine .admitted <| .require fun _ => .require fun hs => Moves.setLink _ fun h => h.append hs ?_ fun e he => ?_
  · refine List.pairwise_filterMap.mpr (allSlots_nodup.imp fun hne a ha b hb => ?_)
    rw [(State.resyncEntry_eq_some ha).1, (State.resyncEntry_eq_some hb).1]
    exact hne
  · obtain ⟨i, -, hi⟩ := List.mem_filterMap.mp he
    obtain ⟨rfl, hk, hv, hp⟩ := State.resyncEntry_eq_some hi
    exact ⟨hk, hv, by simpa [State.pendingAt] using hp⟩

theorem State.disableLink_setLink (s : State) (x : Link) :
    (s.setLink x).disableLink = (allSlots.foldl State.freeSlot s).setLink { x with
      state := .off, queue := [], inFlight := none, noted := false, ackTimer := .stopped, transmission := .stopped,
      openByte := none } := by
  unfold State.disableLink
  rw [State.freeSlots_setLink]
  generalize allSlots.foldl State.freeSlot s = u
  rfl

theorem Moves.applyLinkSettings (new : LinkSettings) : Moves s (s.applyLinkSettings new) := by
  unfold State.applyLinkSettings
  dsimp only
  split
  next hs =>
    split
    next hn => exact Moves.setLink _ fun h => h.enable hs new hn
    next hn => exact Moves.setLink _ fun h => h.configure new (by simp [hs, hn])
  next hs =>
    split
    next hn => exact Moves.setLink _ fun h => h.configure new (by simp [hs, hn])
    next hn =>
      rw [State.disableLink_setLink]
      refine Moves.link allSlots _ fun _ => Link.Lawful.disable s.link new (by simpa using hn) _ fun i => ?_
      rw [Bool.eq_false_iff, ne_eq, State.vacatingSlots_freeSlots]
      exact fun ⟨_, hi⟩ => hi (mem_allSlots i)

theorem Moves.opSetLink (enable bitRate timeout retry : Byte) :
    Moves s (opSetLink p w enable bitRate timeout retry s).2 := by
  refine .admitted <| .require fun _ => ?_
  split
  · exact .refl
  · exact Moves.applyLinkSettings ..

end
end Sys2Proof.Machine

namespace Sys2Proof.Machine

/-! ### Every operation, every command, every step is made of moves -/

theorem Moves.applyOp (p : PortId) (w : WriterNo) (op : Op) (s : State) : Moves s (applyOp p w op s).2 := by
  cases op with
  | admitWriter => exact Moves.opAdmit ..
  | dismiss => exact Moves.opDismiss ..
  | setProfile => exact Moves.opSetProfile ..
  | readProfile => exact Moves.opReadProfile ..
  | create => exact Moves.opCreate ..
  | retire => exact Moves.opRetire ..
  | read => exact Moves.opRead ..
  | claim => exact Moves.opClaim ..
  | release => exact Moves.opRelease ..
  | stage => exact Moves.opStage ..
  | touch => exact Moves.opTouch ..
  | unlatch => exact Moves.opUnlatch ..
  | setLimits => exact Moves.opSetLimits ..
  | setFallback => exact Moves.opSetFallback ..
  | setSupervision => exact Moves.opSetSupervision ..
  | setGroup => exact Moves.opSetGroup ..
  | commit => exact Moves.opCommit ..
  | setCycle => exact Moves.opSetCycle ..
  | setTrigger => exact Moves.opSetTrigger ..
  | readGroup => exact Moves.opReadGroup ..
  | linkStart => exact Moves.opLinkStart ..
  | linkFlush => exact Moves.opLinkFlush ..
  | resync => exact Moves.opResync ..
  | setLink => exact Moves.opSetLink ..
  | scan => exact Moves.opScan ..
  | scanNext => exact Moves.opScanNext ..
  | poll => exact Moves.opPoll ..
  | status => exact Moves.opStatus ..
  | clearTable => exact Moves.opClearTable ..

theorem Moves.applyBatch (p : PortId) (w : WriterNo) (ops : List Op) (s : State) :
    Moves s (applyBatch p w ops s).2 := by
  induction ops generalizing s with
  | nil => exact .refl
  | cons op rest ih =>
    unfold Machine.applyBatch
    dsimp only
    split
    · exact (Moves.applyOp p w op s).trans (ih _)
    · exact Moves.applyOp p w op s

/-- An operation command does what the operation does, and leaves its result (notes/assumptions/5.md). -/
theorem exec_operation {c : Instr} {p : PortId} {w : WriterNo} {op : Op} (h : operationOf c = some (p, w, op))
    (s : State) : exec c s = .next (answered (applyOp p w op s)) := by
  cases c <;> cases h <;> rfl

/-! ### The events of a port (chapter 8) -/

section
variable (s : State) (p : PortId)

theorem Moves.selectActivation : Moves s (s.selectActivation p) := by
  unfold State.selectActivation
  split
  · exact Moves.setPort ..
  · exact .refl

theorem Moves.request (bytes : List Byte) : Moves s (s.request p bytes) := by
  unfold State.request
  split
  · exact Moves.setPort ..
  · exact .refl

theorem Moves.frameCompletion : Moves s (s.frameCompletion p) := by
  unfold State.frameCompletion
  split
  · split
    case h_4 => exact .refl
    all_goals exact Moves.setPort ..
  · exact .refl

theorem Moves.readout : Moves s (s.readout p) := by
  unfold State.readout
  split
  · exact Moves.setPort ..
  · exact .refl

theorem Moves.readoutEnd : Moves s (s.readoutEnd p) := by
  unfold State.readoutEnd
  split
  · exact Moves.setPort ..
  · exact Moves.setPort ..
  · exact .refl

theorem Moves.transactionIgnored (first : Option Byte) : Moves s (s.transactionIgnored p first) := by
  unfold State.transactionIgnored
  split
  · split
    · exact Moves.setPort ..
    · split
      · exact .refl
      · exact Moves.setPort ..
  · exact .refl

theorem Moves.portBreak : Moves s (s.portBreak p) := by
  unfold State.portBreak
  split
  · exact .refl
  · split <;> exact Moves.setPort ..

theorem Moves.breakDismissal : Moves s (s.breakDismissal p) := by
  unfold State.breakDismissal
  split
  · exact Moves.dismissWriter ..
  · exact .refl

theorem Moves.breakCompletion : Moves s (s.breakCompletion p) := by
  unfold State.breakCompletion
  split
  · exact Moves.setPort ..
  · exact .refl

theorem Moves.batchApplication : Moves s (s.batchApplication p) := by
  unfold State.batchApplication
  split
  · split
    · exact (Moves.applyBatch ..).trans (Moves.setPort ..)
    · exact .refl
  · exact .refl

theorem Moves.clockEdge : Moves s (s.clockEdge p) := by
  unfold State.clockEdge
  split
  · exact .refl
  · exact .refl
  · exact Moves.setPort ..

end

/-! ### The events of commits and supervision (chapters 5 and 6) -/

section
variable (s : State)

theorem Moves.cycleExpiry (g : GroupNo) : Moves s (s.cycleExpiry g) := by
  unfold State.cycleExpiry
  split
  · exact .refl
  · exact Moves.commit ..

theorem Moves.risingEdge (l : TriggerLine) : Moves s (s.risingEdge l) := by
  unfold State.risingEdge
  split
  · split
    · exact Moves.setSafe ..
    · exact Moves.commit ..
  · exact .refl

theorem Moves.freshnessExpiry (i : SlotNo) : Moves s (s.freshnessExpiry i) := by
  unfold State.freshnessExpiry
  split
  next r hr =>
    split
    next hx =>
      exact (Moves.change _ hr r.sameEntry_freshnessExpired (Record.sound_freshnessExpired · hx.1 hx.2)).trans
        (Moves.notifyOwner ..)
    · exact .refl
  · exact .refl

theorem Moves.holdTimerExpiry (i : SlotNo) : Moves s (s.holdTimerExpiry i) := by
  unfold State.holdTimerExpiry
  split
  next r hr =>
    split
    next hx =>
      refine (Moves.change (r.holdExpired s.safeActive) hr (r.sameEntry_holdExpired _)
        (Record.sound_holdExpired · hx.2.1 _)).trans ?_
      dsimp only
      split
      · exact Moves.notifyOwner ..
      · exact .refl
    · exact .refl
  · exact .refl

theorem Moves.safeNChange (high : Bool) : Moves s (s.safeNChange high) := by
  unfold State.safeNChange
  split
  · exact .refl
  · exact Moves.setSafe ..

theorem Moves.holdForSafe (i : SlotNo) : Moves s (s.holdForSafe i) := by
  unfold State.holdForSafe
  split
  next r hr =>
    split
    next hl => exact Moves.change _ hr ⟨rfl, rfl, rfl⟩ (Record.sound_heldForSafe · hl)
    · exact .refl
  · exact .refl

theorem Moves.releaseFromSafe (i : SlotNo) : Moves s (s.releaseFromSafe i) := by
  unfold State.releaseFromSafe
  split
  next r hr =>
    split
    next hx => exact Moves.change _ hr ⟨rfl, rfl, rfl⟩ (Record.sound_releasedFromSafe · hx.2)
    · exact .refl
  · exact .refl

theorem Moves.startCycle (g : GroupNo) : Moves s (s.startCycle g) := by
  unfold State.startCycle
  split
  · exact .refl
  · exact Moves.setGroupEntry ..

theorem Moves.safeEntry : Moves s s.safeEntry := by
  unfold State.safeEntry
  split
  · exact (Moves.setSafe ..).trans <| (Moves.foldl Moves.holdForSafe allSlots _).trans <|
      (Moves.foldl (fun s g => Moves.setGroupEntry s g _) allGroups _).trans <| Moves.notifyBoth ..
  · exact .refl

theorem Moves.safeRelease : Moves s s.safeRelease := by
  unfold State.safeRelease
  split
  · exact (Moves.setSafe ..).trans <| (Moves.foldl Moves.releaseFromSafe allSlots _).trans <|
      (Moves.foldl Moves.startCycle allGroups _).trans <| Moves.notifyBoth ..
  · exact .refl

end

/-- Every command is a chain of moves. -/
theorem exec_moves {c : Instr} {s t : State} (h : exec c s = .next t) : Moves s t := by
  cases c
  case powerOnReset => cases h; exact Move.reset.moves
  case rstN => cases h; exact Move.reset.moves
  case selectActivation => cases h; exact Moves.selectActivation ..
  case request => cases h; exact Moves.request ..
  case frameCompletion => cases h; exact Moves.frameCompletion ..
  case readout => cases h; exact Moves.readout ..
  case readoutEnd => cases h; exact Moves.readoutEnd ..
  case transactionIgnored => cases h; exact Moves.transactionIgnored ..
  case portBreak => cases h; exact Moves.portBreak ..
  case breakDismissal => cases h; exact Moves.breakDismissal ..
  case breakCompletion => cases h; exact Moves.breakCompletion ..
  case batchApplication => cases h; exact Moves.batchApplication ..
  case clockEdge => cases h; exact Moves.clockEdge ..
  case selectRelease => cases h; exact Moves.setPort ..
  case freshnessExpiry => cases h; exact Moves.freshnessExpiry ..
  case holdTimerExpiry => cases h; exact Moves.holdTimerExpiry ..
  case cycleTimerExpiry => cases h; exact Moves.cycleExpiry ..
  case risingEdge => cases h; exact Moves.risingEdge ..
  case safeNChange => cases h; exact Moves.safeNChange ..
  case safeEntry => cases h; exact Moves.safeEntry ..
  case safeRelease => cases h; exact Moves.safeRelease ..
  case sendEvent => cases h; exact Moves.sendEvent ..
  case endOfTransmission => cases h; exact Moves.endOfTransmission ..
  case acknowledgement => cases h; exact Moves.acknowledgement ..
  case acknowledgementTimerExpiry => cases h; exact Moves.ackTimerExpiry ..
  case rxpByte => cases h; exact Moves.rxpByte ..
  all_goals
    rw [exec_operation rfl] at h
    cases h
    exact (Moves.applyOp ..).trans (Moves.answered _)

/-- Every step is a chain of moves. -/
theorem step_moves {s t : State} (h : step s = .next t) : Moves s t := by
  unfold step at h
  split at h
  next c rest _ =>
    have taken : Moves s { s with pending := rest } := State.SameRecords.moves ⟨rfl, rfl, rfl, rfl, rfl⟩
    exact taken.trans (exec_moves h)
  · have counted : Moves s s.counted := State.SameRecords.moves ⟨rfl, rfl, rfl, rfl, rfl⟩
    split at h
    · exact counted.trans (exec_moves h)
    · cases h
      exact counted.tail .tick

/-! ### The laws every step keeps -/

/-- Settles O55: every step is a chain of moves, and each move keeps table, index and counts in agreement. -/
theorem stepKeepsTableIndexAndCounts : Obligations.StepKeepsTableIndexAndCounts :=
  fun _ _ table index count h => (step_moves h).keeps Move.keeps_tableLaws ⟨table, index, count⟩

/-- Settles O56: every step is a chain of moves, and each move answers for the record it changes or creates. -/
theorem stepKeepsRecordLaws : Obligations.StepKeepsRecordLaws :=
  fun s t limits shape h =>
    t.recordsSound_iff.mp ((step_moves h).keeps Move.keeps_recordsSound (s.recordsSound_iff.mpr ⟨limits, shape⟩))

/-- Settles O59: every step is a chain of moves, and each move keeps the laws of the link. -/
theorem stepKeepsLinkLaws : Obligations.StepKeepsLinkLaws :=
  fun _ _ link queue vacating inFlight h =>
    (step_moves h).keeps Move.keeps_publicationLaws ⟨link, queue, vacating, inFlight⟩

end Sys2Proof.Machine

namespace Sys2Proof.Machine

/-! ### Operand bytes in and out of range (R174) -/

theorem groupNo?_eq_none (b : Byte) : groupNo? b = none ↔ b = 0 ∨ 15 < b.toNat := by
  have h0 : b = 0 ↔ b.toNat = 0 := by bv_omega
  rw [h0]
  unfold groupNo?
  split
  · simp; omega
  · simp; omega

theorem yesNo?_eq_none (b : Byte) : yesNo? b = none ↔ 1 < b.toNat := by
  unfold yesNo?
  split
  next h => simp [h]
  · split
    next h => simp [h]
    · simp; bv_omega

theorem holdPolicy?_eq_none (b : Byte) : holdPolicy? b = none ↔ 1 < b.toNat := by
  unfold holdPolicy?
  split
  next h => simp [h]
  · split
    next h => simp [h]
    · simp; bv_omega

theorem orphanPolicy?_eq_none (b : Byte) : orphanPolicy? b = none ↔ 2 < b.toNat := by
  unfold orphanPolicy?
  split
  next h => simp [h]
  · split
    next h => simp [h]
    · split
      next h => simp [h]
      · simp; bv_omega

theorem holdPeriod?_eq_none (b : Byte) : holdPeriod? b = none ↔ 3 < b.toNat := by
  unfold holdPeriod?
  split
  · simp; omega
  · simp; omega

theorem freshness?_eq_none (c : Word16) : freshness? c = none ↔ 4095 < c.toNat := by
  simp [freshness?]

theorem supervision?_eq_none (freshness : Word16) (holdPolicy holdPeriod orphan : Byte) :
    supervision? freshness holdPolicy holdPeriod orphan = none ↔
      4095 < freshness.toNat ∨ 1 < holdPolicy.toNat ∨ 3 < holdPeriod.toNat ∨ 2 < orphan.toNat := by
  rw [← freshness?_eq_none, ← holdPolicy?_eq_none, ← holdPeriod?_eq_none, ← orphanPolicy?_eq_none]
  unfold supervision?
  split
  next hf hp hd ho => simp [hf, hp, hd, ho]
  next hnone =>
    refine ⟨fun _ => ?_, fun _ => rfl⟩
    by_contra hin
    simp only [not_or, ← ne_eq, Option.ne_none_iff_exists'] at hin
    obtain ⟨⟨f, hf⟩, ⟨p, hp⟩, ⟨d, hd⟩, o, ho⟩ := hin
    exact hnone f p d o hf hp hd ho

theorem tagInRange_iff (tag : Word16) : tagInRange tag ↔ ¬ (tag = 0x0000 ∨ tag = 0xFFFF) := by
  simp [tagInRange, not_or]

/-- The operand step of a CREATE refuses exactly the operands out of range (R17, step 2). -/
theorem createRecord?_eq_none {tag : Word16} {group : Byte} {lower upper fallback : Value} {clamp publish : Byte}
    {freshness : Word16} {holdPolicy holdPeriod orphan : Byte} :
    createRecord? tag group lower upper fallback clamp publish freshness holdPolicy holdPeriod orphan = none ↔
      tag = 0x0000 ∨ tag = 0xFFFF ∨ group = 0 ∨ 15 < group.toNat ∨ upper.toInt < lower.toInt ∨
        4095 < freshness.toNat ∨ 3 < holdPeriod.toNat ∨ 1 < clamp.toNat ∨ 1 < publish.toNat ∨
        1 < holdPolicy.toNat ∨ 2 < orphan.toNat := by
  have hg := groupNo?_eq_none group
  have hc := yesNo?_eq_none clamp
  have hp := yesNo?_eq_none publish
  have hs := supervision?_eq_none freshness holdPolicy holdPeriod orphan
  have ht := tagInRange_iff tag
  unfold createRecord?
  split
  next hg' hc' hp' hs' =>
    simp only [hg', hc', hp', hs', reduceCtorEq, false_iff, not_or] at hg hc hp hs
    split
    next hin => simp only [reduceCtorEq, false_iff]; grind
    next hin => simp only [true_iff]; grind
  next hnone =>
    simp only [true_iff]
    by_contra hin
    simp only [not_or] at hin
    obtain ⟨g, hg'⟩ := Option.ne_none_iff_exists'.mp (mt hg.mp (by grind))
    obtain ⟨c, hc'⟩ := Option.ne_none_iff_exists'.mp (mt hc.mp (by grind))
    obtain ⟨p, hp'⟩ := Option.ne_none_iff_exists'.mp (mt hp.mp (by grind))
    obtain ⟨v, hs'⟩ := Option.ne_none_iff_exists'.mp (mt hs.mp (by grind))
    exact hnone g c p v hg' hc' hp' hs'

/-! ### Answers by the first check that fails (R153, R154) -/

/-- What applying an operation answers: a status, and, unless that is OK, no data and the part unchanged. -/
def Answers (a : Applied) (s : State) (status : Status) : Prop :=
  a.1.status = status ∧ (status ≠ .ok → a = refuse status s)

theorem answersInOrder_of_answers {c : Instr} {p : PortId} {w : WriterNo} {op : Op} {s : State} {status : Status}
    (hc : operationOf c = some (p, w, op)) (h : Answers (applyOp p w op s) s status) : AnswersInOrder c s status := by
  refine ⟨_, exec_operation hc s, by simp [answered, h.1], fun hne => ?_⟩
  rw [h.2 hne]
  rfl

section
variable {s : State} {next : Applied} {status after : Status}

theorem Answers.refuse : Answers (refuse status s) s status :=
  ⟨rfl, fun _ => rfl⟩

theorem Answers.accept {d : Data} {t : State} : Answers (accept d t) s .ok :=
  ⟨rfl, fun h => absurd rfl h⟩

theorem Answers.require {c d : Prop} [Decidable c] [Decidable d] (hcd : c ↔ ¬ d) (h : c → Answers next s after) :
    Answers (require c status s next) s (if d then status else after) := by
  by_cases hd : d
  · rw [if_pos hd, require_not _ _ _ _ fun hc => hcd.mp hc hd]
    exact .refuse
  · rw [if_neg hd, require_of _ _ _ _ (hcd.mpr hd)]
    exact h (hcd.mpr hd)

theorem Answers.admitted {p : PortId} {w : WriterNo} (hw : s.speaks p w) (h : Answers next s after) :
    Answers (admitted p w s next) s after := by
  rwa [admitted_of_speaks hw]

/-- The tag lookup step, where the index agrees with the table: the record found is the tag's. -/
theorem Answers.onRecord {tag : Word16} {next : SlotNo → Record → Applied} (hi : s.indexLaw)
    (h : ∀ i r, s.recordOf tag = some r → Answers (next i r) s after) :
    Answers (onRecord tag s next) s (if s.tagIndex.lookup tag = none then .unknownTag else after) := by
  cases hl : s.tagIndex.lookup tag with
  | none =>
    rw [if_pos rfl, onRecord_none hl]
    exact .refuse
  | some i =>
    obtain ⟨r, hr, -⟩ := (hi.2 tag i).mp hl
    have hf : s.find tag = some (i, r) := by simp [State.find, hl, hr]
    rw [if_neg (by simp)]
    unfold Machine.onRecord
    rw [hf]
    exact h i r (by simp [State.recordOf, hl, hr])

end

theorem Profile.holds_iff (f : Profile) (r : Right) : f.holds r = true ↔ ¬ f.rights.getLsbD r.bit = false := by
  simp [Profile.holds]

/-- Settles O10: each step of R17 refuses where its clause of the statement holds. -/
theorem createChecksInOrder : Obligations.CreateChecksInOrder := by
  intro p w tag group lower upper fallback clamp publish freshness holdPolicy holdPeriod orphan s hw
  refine answersInOrder_of_answers rfl (.admitted hw <| .require (Profile.holds_iff _ .create) fun _ => ?_)
  cases hr : createRecord? tag group lower upper fallback clamp publish freshness holdPolicy holdPeriod orphan with
  | none =>
    rw [if_pos (createRecord?_eq_none.mp hr)]
    exact .refuse
  | some r =>
    rw [if_neg fun hbad => by simp [createRecord?_eq_none.mpr hbad] at hr]
    refine .require (by simp [within, not_or]) fun _ => .require not_ne_iff.symm fun _ => ?_
    cases hf : s.lowestFree with
    | none =>
      have hfull : ∀ i, s.slot i ≠ .free := fun i => by simpa using List.find?_eq_none.mp hf i (mem_allSlots i)
      rw [if_pos hfull]
      exact .refuse
    | some i =>
      have hi : s.slot i = .free := by simpa using List.find?_some hf
      rw [if_neg fun hfull => hfull i hi]
      exact .accept

/-! ### The operations that name a record by its tag -/

section
variable {s : State} {p : PortId} {w : WriterNo} {tag : Word16} {after : Status}

/-- The step that wants the record to be the writer's own. -/
theorem notOwned_iff {r : Record} (hr : s.recordOf tag = some r) :
    r.owner = some w ↔ ¬ (s.recordOf tag).all (fun r => r.owner != some w) = true := by
  simp [hr]

/-- The step that wants the record unowned or the writer's own. -/
theorem othersRecord_iff {r : Record} (hr : s.recordOf tag = some r) :
    r.owner = none ∨ r.owner = some w ↔
      ¬ (s.recordOf tag).all (fun r => r.owner != none && r.owner != some w) = true := by
  simp [hr, ← or_iff_not_imp_left]

theorem Answers.onOwned {next : SlotNo → Record → Applied} (hw : s.speaks p w) (hi : s.indexLaw)
    (h : ∀ i r, s.recordOf tag = some r → Answers (next i r) s after) :
    Answers (onOwned p w tag s next) s
      (if (s.profile w).rights.getLsbD 2 = false then .noRight
       else if tag = 0x0000 ∨ tag = 0xFFFF then .badOperand
       else if s.tagIndex.lookup tag = none then .unknownTag
       else if (s.recordOf tag).all (fun r => r.owner != some w) then .notOwner
       else after) :=
  .admitted hw <| .require (Profile.holds_iff _ .stage) fun _ => .require (tagInRange_iff tag) fun _ =>
    .onRecord hi fun i r hr => .require (notOwned_iff hr) fun _ => h i r hr

theorem Answers.onShaped {next : SlotNo → Record → Applied} {operands bad : Prop} [Decidable operands]
    [Decidable bad] (hw : s.speaks p w) (hi : s.indexLaw) (hb : tagInRange tag ∧ operands ↔ ¬ bad)
    (h : operands → ∀ i r, s.recordOf tag = some r → Answers (next i r) s after) :
    Answers (onShaped p w tag operands s next) s
      (if (s.profile w).rights.getLsbD 3 = false then .noRight
       else if bad then .badOperand
       else if s.tagIndex.lookup tag = none then .unknownTag
       else if (s.recordOf tag).all (fun r => r.owner != none && r.owner != some w) then .notOwner
       else after) :=
  .admitted hw <| .require (Profile.holds_iff _ .shape) fun _ => .require hb fun ho =>
    .onRecord hi fun i r hr => .require (othersRecord_iff hr) fun _ => h ho.2 i r hr

end

theorem Record.stagedFor_eq_none (r : Record) (v : Value) :
    r.stagedFor v = none ↔
      (!r.clamp && decide (v.toInt < r.lower.toInt ∨ r.upper.toInt < v.toInt)) = true := by
  unfold Record.stagedFor within
  split
  · simp; omega
  · split
    · simp [*]
    · simp [*]; omega

/-- Settles O11: each of the nine operations answers by the steps it shares with others of its kind, and by its own. -/
theorem tagOperationsCheckInOrder : Obligations.TagOperationsCheckInOrder := by
  intro p w tag s hw hi
  refine ⟨?_, ?_, ?_, ?_, fun value => ?_, ?_, fun value => ?_, fun freshness holdPolicy holdPeriod orphan => ?_,
    fun group => ?_⟩
  · exact answersInOrder_of_answers rfl (.admitted hw <| .require (tagInRange_iff tag) fun _ =>
      .onRecord hi fun _ _ _ => .accept)
  · exact answersInOrder_of_answers rfl (.admitted hw <| .require (tagInRange_iff tag) fun _ =>
      .onRecord hi fun _ _ hr => .require (notOwned_iff hr) fun _ => .accept)
  · exact answersInOrder_of_answers rfl (.admitted hw <| .require (Profile.holds_iff _ .retire) fun _ =>
      .require (tagInRange_iff tag) fun _ => .onRecord hi fun _ _ hr => .require (othersRecord_iff hr) fun _ => .accept)
  · exact answersInOrder_of_answers rfl (.onOwned hw hi fun _ _ _ => .accept)
  · refine answersInOrder_of_answers rfl (.onOwned hw hi fun i r hr => ?_)
    dsimp only
    rw [hr, Option.any_some]
    cases hs : r.stagedFor value with
    | none =>
      rw [if_pos ((r.stagedFor_eq_none value).mp hs)]
      exact .refuse
    | some e =>
      rw [if_neg fun hout => by simp [(r.stagedFor_eq_none value).mpr hout] at hs]
      exact .accept
  · exact answersInOrder_of_answers rfl (.onOwned hw hi fun _ _ hr => .require (by simp [hr]) fun _ => .accept)
  · exact answersInOrder_of_answers rfl (.onShaped hw hi (by simp [tagInRange_iff]) fun _ _ _ hr =>
      .require (by simp [hr, within]) fun _ => .accept)
  · refine answersInOrder_of_answers rfl ?_
    have hbad := supervision?_eq_none freshness holdPolicy holdPeriod orphan
    change Answers (opSetSupervision p w tag freshness holdPolicy holdPeriod orphan s) s _
    unfold opSetSupervision
    cases hv : supervision? freshness holdPolicy holdPeriod orphan with
    | none =>
      refine .onShaped hw hi ?_ False.elim
      grind
    | some v =>
      refine .onShaped hw hi ?_ fun _ _ _ _ => .accept
      grind
  · refine answersInOrder_of_answers rfl ?_
    have hbad := groupNo?_eq_none group
    change Answers (opSetGroup p w tag group s) s _
    unfold opSetGroup
    cases hg : groupNo? group with
    | none =>
      refine .onShaped hw hi ?_ False.elim
      grind
    | some g =>
      refine .onShaped hw hi ?_ fun _ _ _ _ => .accept
      grind

end Sys2Proof.Machine

namespace Sys2Proof.Machine

/-! ### Operands written and read back (10.1, 10.3) -/

theorem groupNo?_ofNat (g : GroupNo) : groupNo? (BitVec.ofNat 8 (g.val + 1)) = some g := by
  have h : (BitVec.ofNat 8 (g.val + 1)).toNat = g.val + 1 := by rw [BitVec.toNat_ofNat]; omega
  unfold groupNo?
  rw [dif_pos (by omega)]
  exact congrArg some (Fin.ext (by simp only [h]; omega))

theorem writerNo?_ofNat (w : WriterNo) : writerNo? (BitVec.ofNat 8 w.val) = some w := by
  have h : (BitVec.ofNat 8 w.val).toNat = w.val := by rw [BitVec.toNat_ofNat]; omega
  unfold writerNo?
  rw [dif_pos (by omega)]
  exact congrArg some (Fin.ext h)

theorem holdPeriod?_ofNat (d : Fin 4) : holdPeriod? (BitVec.ofNat 8 d.val) = some d := by
  have h : (BitVec.ofNat 8 d.val).toNat = d.val := by rw [BitVec.toNat_ofNat]; omega
  unfold holdPeriod?
  rw [dif_pos (by omega)]
  exact congrArg some (Fin.ext h)

theorem freshness?_ofNat {n : Nat} (hn : n ≤ 4095) : freshness? (BitVec.ofNat 16 n) = some n := by
  have h : (BitVec.ofNat 16 n).toNat = n := by rw [BitVec.toNat_ofNat]; omega
  simp only [freshness?, h, if_pos hn]

theorem yesNo?_ofNat (b : Bool) : yesNo? (BitVec.ofNat 8 b.toNat) = some b := by
  cases b <;> rfl

theorem holdPolicy?_code (x : HoldPolicy) : holdPolicy? x.code = some x := by
  cases x <;> rfl

theorem orphanPolicy?_code (x : OrphanPolicy) : orphanPolicy? x.code = some x := by
  cases x <;> rfl

/-! ### Reset (R27) -/

/-- Settles O4: both resets give the part the same values. -/
theorem bothResetsGiveStatedValues : Obligations.BothResetsGiveStatedValues := by
  intro s
  refine ⟨s.afterReset, rfl, rfl, fun _ => rfl, rfl, rfl, rfl, fun w => ?_, rfl, fun w hw => ?_, fun g => ?_,
    fun l => ?_, rfl, rfl, fun p => ?_, rfl, rfl, rfl, rfl, rfl⟩
  · simp [State.writer, State.afterReset, State.reset]
  · have hne : (0 : Nat) ≠ w.val := fun h => hw (Fin.ext h.symm)
    simp [State.profile, State.afterReset, State.reset, resetProfiles, hne]
  · simp [State.groupEntry, State.afterReset, State.reset]
  · cases l <;> rfl
  · have hport : s.afterReset.port p = (s.port p).afterReset := by cases p <;> rfl
    rw [hport]
    unfold Port.afterReset
    split <;> rfl

/-- Settles O5: after reset every slot is FREE, every writer VACANT, and nothing runs. -/
theorem resetStateIsLawful : Obligations.ResetStateIsLawful := by
  obtain ⟨table, index, count⟩ := State.reset_tableLaws
  obtain ⟨link, queue, vacating, inFlight⟩ := State.reset_publicationLaws
  have noRecord : ∀ P, State.reset.everyRecord P := fun P i r hr => by simp [State.reset_slot] at hr
  have profile : ∀ w, State.reset.profile w =
      if w = 0 then { rights := 0b111111, ceiling := 15, quota := 256 }
      else { rights := 0, ceiling := 0, quota := 0 } := by
    decide
  have writer : ∀ w, State.reset.writer w = { binding := none, ownedCount := 0 } := by decide
  have entry : ∀ g, State.reset.groupEntry g = { period := 0, timer := .stopped, count := 0 } := by decide
  have owns : ∀ w, State.reset.ownedSlots w = [] := fun w => by
    simp [State.ownedSlots, State.reset_slot]
  exact
    { table, index, count, link, queue, vacating, inFlight
      limits := noRecord _
      shape := noRecord _
      owned := fun w => by simp [writer, owns]
      precedence := noRecord _
      safe := fun _ => noRecord _
      cycle := fun g => by simp [entry]
      stability := by simp [State.filterLaw, State.reset, SafeState.reset, SafeState.opposed]
      ports := fun p => by cases p <;> simp [State.portLaw, State.port, State.reset, Port.reset]
      profiles := ⟨rfl, fun w => by rw [profile]; split <;> simp⟩ }

/-! ### Reports (R22, R46, R103) -/

/-- Settles O14: the three reports, their operands read back. -/
theorem readsReportAndChangeNothing : Obligations.ReadsReportAndChangeNothing := by
  intro p w s hw
  refine ⟨fun tag i r hn => ?_, fun target => ?_, fun g => ?_⟩
  · rw [exec_operation rfl]
    have hop : opRead p w tag s = accept (.description (s.describe i r)) s := by
      unfold opRead
      rw [admitted_of_speaks hw, require_of _ _ _ _ hn.1, onRecord_of_names hn]
    exact congrArg (fun a => Host.Outcome.next (answered a)) hop
  · rw [exec_operation rfl]
    have hop : opReadProfile p w (BitVec.ofNat 8 target.val) s =
        accept (.profile target (s.profile target) (s.writer target)) s := by
      unfold opReadProfile
      rw [admitted_of_speaks hw, writerNo?_ofNat]
    exact congrArg (fun a => Host.Outcome.next (answered a)) hop
  · rw [exec_operation rfl]
    have hop : opReadGroup p w (BitVec.ofNat 8 (g.val + 1)) s =
        accept (.group g (s.groupEntry g) (s.members g).length (s.stagedMembers g).length s.trg0 s.trg1) s := by
      unfold opReadGroup
      rw [admitted_of_speaks hw, groupNo?_ofNat]
    refine (congrArg (fun a => Host.Outcome.next (answered a)) hop).trans <|
      congrArg₂ (fun members staged => Host.Outcome.next (s.withResult .ok
        (.group g (s.groupEntry g) (List.length members) (List.length staged) s.trg0 s.trg1)))
        (List.filter_congr fun i _ => ?_) (List.filter_congr fun i _ => ?_)
    · cases s.slot i <;> rfl
    · cases s.slot i <;> rfl

/-! ### CREATE and RETIRE (R18, R21) -/

theorem State.lowestFree_eq {s : State} {i : SlotNo} (hi : s.slot i = .free)
    (hlow : ∀ j, j < i → s.slot j ≠ .free) : s.lowestFree = some i := by
  refine List.find?_eq_some_iff_append.mpr ⟨by simp [hi], ?_⟩
  obtain ⟨before, rest, hl⟩ := List.append_of_mem (mem_allSlots i)
  refine ⟨before, rest, hl, fun j hj => ?_⟩
  have hrise : (before ++ i :: rest).Pairwise (· < ·) := hl ▸ List.pairwise_lt_finRange 256
  obtain ⟨-, -, hbelow⟩ := List.pairwise_append.mp hrise
  simpa using hlow j (hbelow j hj i (by simp))

/-- Operands in range, as 10.1 codes them, make the record of R18. -/
theorem createRecord?_encoded {tag : Word16} {g : GroupNo} {lower upper fallback : Value} {clamp publish : Bool}
    {freshness : Nat} {policy : HoldPolicy} {period : Fin 4} {orphan : OrphanPolicy} (htag : tagInRange tag)
    (hlu : lower.toInt ≤ upper.toInt) (hfr : freshness ≤ 4095) :
    createRecord? tag (BitVec.ofNat 8 (g.val + 1)) lower upper fallback (BitVec.ofNat 8 clamp.toNat)
      (BitVec.ofNat 8 publish.toNat) (BitVec.ofNat 16 freshness) policy.code (BitVec.ofNat 8 period.val) orphan.code =
      some
        { tag := tag, state := .dormant, owner := none, precedence := 0, live := none, staged := none,
          fallback := fallback, lower := lower, upper := upper, clamp := clamp, publish := publish, group := g,
          freshnessCode := freshness, holdPolicy := policy, holdPeriod := period, orphan := orphan, holdCause := none,
          refreshed := none, sequence := 0, countdown := .stopped, holdTimer := .stopped } := by
  simp only [createRecord?, supervision?, groupNo?_ofNat, yesNo?_ofNat, freshness?_ofNat hfr, holdPolicy?_code,
    holdPeriod?_ofNat, orphanPolicy?_code]
  rw [if_pos ⟨htag, hlu⟩]

/-- An accepted CREATE adds its record. -/
theorem opCreate_eq {p : PortId} {w : WriterNo} {tag : Word16} {group : Byte} {lower upper fallback : Value}
    {clamp publish : Byte} {freshness : Word16} {holdPolicy holdPeriod orphan : Byte} {s : State} {r : Record}
    {i : SlotNo} (hw : s.speaks p w) (hright : (s.profile w).holds .create = true)
    (hr : createRecord? tag group lower upper fallback clamp publish freshness holdPolicy holdPeriod orphan = some r)
    (hv : within lower upper fallback) (hl : s.tagIndex.lookup tag = none) (hi : s.lowestFree = some i) :
    opCreate p w tag group lower upper fallback clamp publish freshness holdPolicy holdPeriod orphan s =
      accept (.slot i) (s.addRecord i r) := by
  unfold opCreate
  rw [admitted_of_speaks hw, require_of _ _ _ _ hright, hr]
  dsimp only
  rw [require_of _ _ _ _ hv, require_of _ _ _ _ hl, hi]

/-- Settles O15: the operands read back make the record, and the lowest FREE slot takes it. -/
theorem createFillsLowestFreeSlot : Obligations.CreateFillsLowestFreeSlot := by
  intro p w tag g lower upper fallback clamp publish freshness policy period orphan i s hw hright h0 hF hlf hfu hfr hl
    hfree hlow
  have hrec := createRecord?_encoded (g := g) (fallback := fallback) (clamp := clamp) (publish := publish)
    (policy := policy) (period := period) (orphan := orphan) ⟨h0, hF⟩ (hlf.trans hfu) hfr
  have hop := opCreate_eq hw hright hrec ⟨hlf, hfu⟩ hl (State.lowestFree_eq hfree hlow)
  refine ⟨_, exec_operation rfl s, ?_⟩
  rw [applyOp, hop]
  refine ⟨?_, fun j hj => ?_, fun u => indexInsert_lookup .., rfl⟩
  · exact (s.addRecord_slot i i _).trans (if_pos rfl)
  · exact (s.addRecord_slot i j _).trans (if_neg (Ne.symm hj))

/-- Settles O16: the operation is the retirement of the record its tag names. -/
theorem retireEndsTheRecord : Obligations.RetireEndsTheRecord := by
  intro p w tag i r s hw hright hn ho
  have hop : opRetire p w tag s = accept (.slotState i ((s.retireRecord i r).slot i).state) (s.retireRecord i r) := by
    have hholds : (s.profile w).holds .retire = true := hright
    unfold opRetire
    rw [admitted_of_speaks hw, require_of _ _ _ _ hholds, require_of _ _ _ _ hn.1, onRecord_of_names hn,
      require_of _ _ _ _ ho]
  obtain ⟨hret, hrest⟩ := s.retireRecord_spec i r
  have hstate : ((s.retireRecord i r).slot i).state =
      if r.publish ∧ s.link.state ≠ .off then .vacating else .free := by
    rw [hret.1]
    unfold State.retiredSlot
    split <;> rfl
  refine ⟨_, exec_operation rfl s, ?_⟩
  rw [applyOp, hop, hstate]
  refine ⟨hret, ?_⟩
  generalize s.retireRecord i r = u at *
  rw [hrest]
  rfl

end Sys2Proof.Machine

namespace Sys2Proof.Machine

/-! ### CLEAR_TABLE (R25) -/

/-- An index in which no tag is found is empty. -/
theorem eq_nil_of_lookup_none {ix : List (Word16 × SlotNo)} (h : ∀ tag, ix.lookup tag = none) : ix = [] := by
  cases ix with
  | nil => rfl
  | cons e ix => simpa using h e.1

/-- Every slot is FREE, VACATING, or holds a record (R4). -/
theorem State.length_slots (s : State) :
    (allSlots.filter fun i => s.slot i = .free).length + (allSlots.filter fun i => (s.slot i).isVacating).length +
      (allSlots.filter fun i => (s.slot i).record?.isSome).length = 256 := by
  have key : ∀ l : List SlotNo, (l.filter fun i => s.slot i = .free).length +
      (l.filter fun i => (s.slot i).isVacating).length + (l.filter fun i => (s.slot i).record?.isSome).length =
        l.length := fun l => by
    induction l with
    | nil => rfl
    | cons i l ih =>
      cases hs : s.slot i <;> simp [hs] <;> omega
  rw [key, allSlots, List.length_finRange]

/-- Every record of the table is dropped by retirement. -/
abbrev State.DropsAll (s t : State) : Prop :=
  s.Drops t s.indexedSlots (fun _ => true) id

/-- What a CLEAR_TABLE does to the part: it drops every record, and closes both cursors. -/
theorem State.clearTable_spec (s : State) :
    ∃ t, s.DropsAll t ∧
      s.clearTable = { t with
        portA := { s.portA with cursor := none }, portB := { s.portB with cursor := none } } := by
  have hd := s.retireSlots_drops id s.indexedSlots (allSlots_nodup.filter _)
  refine ⟨_, hd, ?_⟩
  unfold State.clearTable
  generalize s.indexedSlots.foldl State.retireSlot s = t at *
  rw [hd.rest]
  rfl

theorem State.mem_indexedSlots (s : State) (i : SlotNo) :
    i ∈ s.indexedSlots ↔ (s.slot i).record?.isSome = true := by
  simp [State.indexedSlots, mem_allSlots]

/-- The slots that hold a record and pass a test that none but such a slot passes are those that pass it. -/
theorem State.filter_indexedSlots (s : State) {test other : SlotNo → Bool}
    (h : ∀ i, other i = ((s.slot i).record?.isSome && test i)) :
    s.indexedSlots.filter test = allSlots.filter other :=
  filter_filter_of _ _ _ _ h

/-- The slots whose record waits for the link when it is retired (R14). -/
def State.waitingSlots (s : State) : List SlotNo :=
  allSlots.filter (s.vacatesAt fun _ => true)

section
variable {s t : State}

theorem State.DropsAll.slot (h : s.DropsAll t) (i : SlotNo) : t.slot i = s.droppedSlot (fun _ => true) id i := by
  rw [Drops.slot h]
  split
  · rfl
  next hi =>
    rw [State.mem_indexedSlots] at hi
    unfold State.droppedSlot
    cases hs : s.slot i with
    | holding r => simp [hs] at hi
    | free => rfl
    | vacating => rfl

theorem State.DropsAll.vacatingSlot (h : s.DropsAll t) (i : SlotNo) :
    s.vacatesAt (fun _ => true) i = ((s.slot i).record?.isSome && (t.slot i).isVacating) := by
  rw [DropsAll.slot h]
  unfold State.vacatesAt State.droppedSlot
  cases s.slot i with
  | holding r => by_cases hw : r.publish = true ∧ s.link.state ≠ .off <;> simp [State.retiredSlot, hw]; grind
  | free => rfl
  | vacating => rfl

theorem State.DropsAll.tagIndex (h : s.DropsAll t) (hindex : s.indexLaw) : t.tagIndex = [] := by
  refine eq_nil_of_lookup_none fun tag => ?_
  rw [h.index]
  cases hl : s.tagIndex.lookup tag with
  | none => simp
  | some i =>
    obtain ⟨r, hr, ht⟩ := (hindex.2 tag i).mp hl
    refine if_pos (List.any_eq_true.mpr ⟨i, (s.mem_indexedSlots i).mpr (by simp [hr]), ?_⟩)
    simp [State.goneAt, hr, ht]

theorem State.DropsAll.queue (h : s.DropsAll t) :
    t.link.queue = (allSlots.flatMap (s.droppedEntry (fun _ => true) id)).foldl handOver s.link.queue := by
  rw [Drops.queue h]
  refine congrArg (List.foldl handOver s.link.queue) (flatMap_filter_of _ _ _ _ fun i => ?_)
  unfold State.droppedEntry
  cases s.slot i <;> rfl

theorem State.filter_vacatesAt_indexedSlots (s : State) :
    s.indexedSlots.filter (s.vacatesAt fun _ => true) = s.waitingSlots :=
  s.filter_indexedSlots fun i => by
    unfold State.vacatesAt
    cases s.slot i <;> simp

theorem State.DropsAll.freeCount (h : s.DropsAll t) :
    t.freeCount + s.waitingSlots.length = s.freeCount + s.indexedSlots.length := by
  have hgone : s.indexedSlots.filter (s.goneAt fun _ => true) = s.indexedSlots :=
    s.filter_indexedSlots fun i => by
      unfold State.goneAt
      cases s.slot i <;> rfl
  rw [← s.filter_vacatesAt_indexedSlots, h.free, hgone]

theorem State.DropsAll.vacatingCount (h : s.DropsAll t) :
    t.vacatingCount = s.vacatingCount + s.waitingSlots.length := by
  rw [← s.filter_vacatesAt_indexedSlots, h.vacating]

theorem State.DropsAll.writer (h : s.DropsAll t) (w : WriterNo) :
    t.writer w =
      { s.writer w with ownedCount := (s.writer w).ownedCount - (allSlots.filter (s.ownedBy w)).length } := by
  have howned : s.indexedSlots.filter (s.ownedBy w) = allSlots.filter (s.ownedBy w) :=
    s.filter_indexedSlots fun i => by
      unfold State.ownedBy
      cases s.slot i <;> simp
  rw [h.writers, howned]

/-- After every record was retired, FREE and VACATING slots make up the table (R25). -/
theorem State.DropsAll.sum (h : s.DropsAll t) (hc : s.countLaw) : t.freeCount + t.vacatingCount = 256 := by
  have hslots := s.length_slots
  have hfree := h.freeCount
  have hvac := h.vacatingCount
  obtain ⟨hf, hv⟩ := hc
  unfold State.indexedSlots at hfree
  omega

end

/-- An accepted CLEAR_TABLE retires every record. -/
theorem opClearTable_eq {p : PortId} {s t : State} (hw : s.speaks p 0)
    (hothers : ∀ v, v ≠ 0 → (s.writer v).binding = none) (hd : s.DropsAll t)
    (hclear : s.clearTable = { t with
      portA := { s.portA with cursor := none }, portB := { s.portB with cursor := none } }) :
    opClearTable p 0 s = accept (.cleared s.indexedSlots.length s.waitingSlots.length) s.clearTable := by
  have hslot : ∀ i, s.clearTable.slot i = t.slot i := fun i => by rw [hclear]; rfl
  have hwaiting : s.indexedSlots.filter (fun i => (s.clearTable.slot i).isVacating) = s.waitingSlots := by
    simp only [hslot]
    exact s.filter_indexedSlots hd.vacatingSlot
  have hnone : s.otherAdmitted = false := by
    simp only [State.otherAdmitted, List.any_eq_false]
    intro v _
    by_cases hv : v = 0
    · simp [hv]
    · simp [hothers v hv]
  unfold opClearTable
  rw [admitted_of_speaks hw, require_of _ _ _ _ rfl, require_of _ _ _ _ hnone, hwaiting]

/-- Settles O17: the retirements drop every record, and the laws of R7 and R33 then give the two sums. -/
theorem clearTableRetiresEveryRecord : Obligations.ClearTableRetiresEveryRecord := by
  intro p s hw hothers hindex retired vacated
  obtain ⟨t, hd, hclear⟩ := s.clearTable_spec
  have hop := opClearTable_eq hw hothers hd hclear
  have hvacated : s.waitingSlots = vacated := List.filter_congr fun i _ => by
    unfold State.vacatesAt
    cases s.slot i <;> simp
  rw [hclear, hvacated] at hop
  refine ⟨_, exec_operation rfl s, ?_⟩
  rw [applyOp, hop]
  refine ⟨fun i => (hd.slot i).trans ?_, hd.tagIndex hindex, hd.queue.trans ?_, hvacated ▸ hd.freeCount,
    hvacated ▸ hd.vacatingCount, hd.writer, hd.sum, fun howned => ?_, ?_⟩
  · unfold State.droppedSlot
    cases s.slot i <;> rfl
  · refine congrArg (fun f => (allSlots.flatMap f).foldl handOver s.link.queue) (funext fun i => ?_)
    unfold State.droppedEntry
    cases s.slot i <;> rfl
  · refine (congrArg WriterSlot.ownedCount (hd.writer 0)).trans ?_
    rw [(howned 0).1, State.ownedSlots_eq, Nat.sub_self]
  · rw [← hd.tagIndex hindex]
    generalize t = u at *
    rw [hd.rest]
    rfl

end Sys2Proof.Machine

namespace Sys2Proof.Machine

/-! ### What keeps a law of the part -/

/-- If the part `s` meets a law, so does `t`. -/
structure Keeps (P : State → Prop) (s t : State) : Prop where
  law : P s → P t

section
variable {P : State → Prop} {s t u : State}

theorem Keeps.refl : Keeps P s s :=
  ⟨id⟩

theorem Keeps.trans (h : Keeps P s t) (k : Keeps P t u) : Keeps P s u :=
  ⟨fun hs => k.law (h.law hs)⟩

theorem Keeps.foldl {α : Type} {g : State → α → State} (hg : ∀ s a, Keeps P s (g s a)) (l : List α) :
    Keeps P s (l.foldl g s) :=
  ⟨fun hs => l.foldlRecOn (motive := P) g hs fun u hu a _ => (hg u a).law hu⟩

theorem Keeps.require {c : Prop} [Decidable c] {status : Status} {next : Applied} (h : c → Keeps P s next.2) :
    Keeps P s (require c status s next).2 := by
  unfold Machine.require
  split
  · exact h ‹_›
  · exact .refl

theorem Keeps.admitted {p : PortId} {w : WriterNo} {next : Applied} (h : s.speaks p w → Keeps P s next.2) :
    Keeps P s (admitted p w s next).2 :=
  .require fun _ => .require h

theorem Keeps.onRecord {tag : Word16} {next : SlotNo → Record → Applied}
    (h : ∀ i r, s.slot i = .holding r → Keeps P s (next i r).2) : Keeps P s (onRecord tag s next).2 := by
  unfold Machine.onRecord
  split
  · exact .refl
  · exact h _ _ (State.slot_of_find ‹_›)

theorem Keeps.onOwned {p : PortId} {w : WriterNo} {tag : Word16} {next : SlotNo → Record → Applied}
    (h : ∀ i r, s.slot i = .holding r → r.owner = some w → Keeps P s (next i r).2) :
    Keeps P s (onOwned p w tag s next).2 :=
  .admitted fun _ => .require fun _ => .require fun _ => .onRecord fun i r hs => .require (h i r hs)

theorem Keeps.onShaped {p : PortId} {w : WriterNo} {tag : Word16} {operands : Prop} [Decidable operands]
    {next : SlotNo → Record → Applied} (h : ∀ i r, s.slot i = .holding r → Keeps P s (next i r).2) :
    Keeps P s (onShaped p w tag operands s next).2 :=
  .admitted fun _ => .require fun _ => .require fun _ => .onRecord fun i r hs => .require fun _ => h i r hs

end

/-! ### What the laws of ownership read (R30, R33, R49) -/

/-- R49 for one record. -/
def State.entitles (s : State) (r : Record) : Prop :=
  match r.owner with
  | none => r.precedence = 0 ∧ r.staged = none
  | some w => 1 ≤ r.precedence ∧ r.precedence ≤ (s.profile w).ceiling ∧ (s.writer w).binding ≠ none

/-- The laws of owned counts, quotas, precedences, ceilings and bindings. -/
def State.ownershipLaws (s : State) : Prop :=
  s.ownedLaw ∧ s.everyRecord s.entitles ∧ s.profileLaw

theorem State.ownershipLaws_iff (s : State) : s.ownershipLaws ↔ s.ownedLaw ∧ s.precedenceLaw ∧ s.profileLaw :=
  Iff.rfl

abbrev KeepsOwnership : State → State → Prop :=
  Keeps State.ownershipLaws

theorem State.entitles_of_unowned (s : State) {r : Record} (h : r.owner = none) :
    s.entitles r ↔ r.precedence = 0 ∧ r.staged = none := by
  simp [State.entitles, h]

theorem State.entitles_of_owned (s : State) {r : Record} {w : WriterNo} (h : r.owner = some w) :
    s.entitles r ↔
      1 ≤ r.precedence ∧ r.precedence ≤ (s.profile w).ceiling ∧ (s.writer w).binding ≠ none := by
  simp [State.entitles, h]

/-- R49 for a record reads the profiles and which writers are bound. -/
theorem State.entitles_congr {s t : State} {r : Record} (hp : ∀ v, t.profile v = s.profile v)
    (hb : ∀ v, r.owner = some v → ((t.writer v).binding = none ↔ (s.writer v).binding = none)) :
    t.entitles r ↔ s.entitles r := by
  cases ho : r.owner with
  | none => rw [t.entitles_of_unowned ho, s.entitles_of_unowned ho]
  | some v => rw [t.entitles_of_owned ho, s.entitles_of_owned ho, hp, ne_eq, hb v ho]

section
variable {s : State} {i : SlotNo} {v : WriterNo}

theorem State.ownedBy_holding {r : Record} (h : s.slot i = .holding r) :
    s.ownedBy v i = decide (r.owner = some v) := by
  simp [State.ownedBy, h, Bool.beq_eq_decide_eq]

theorem State.ownedBy_iff : s.ownedBy v i = true ↔ ∃ r, s.slot i = .holding r ∧ r.owner = some v := by
  cases hs : s.slot i <;> simp [State.ownedBy, hs]

theorem State.ownedBy_of_record?_none (h : (s.slot i).record? = none) : s.ownedBy v i = false := by
  cases hs : s.slot i with
  | holding r => simp [hs] at h
  | free => simp [State.ownedBy, hs]
  | vacating => simp [State.ownedBy, hs]

theorem State.ownedBy_congr {t : State} (h : t.slot i = s.slot i) : t.ownedBy v i = s.ownedBy v i := by
  unfold State.ownedBy
  rw [h]

end

/-! ### Events that leave every record its owner -/

section
variable {s t : State}

/-- The laws of ownership stay where writers, profiles and every slot's owner do, and every record stays entitled. -/
theorem KeepsOwnership.of_sameOwners (writers : t.writers = s.writers) (profiles : t.profiles = s.profiles)
    (owned : ∀ v i, t.ownedBy v i = s.ownedBy v i) (entitled : s.everyRecord s.entitles → t.everyRecord s.entitles) :
    KeepsOwnership s t := by
  refine ⟨fun ⟨ho, hq, hp⟩ => ?_⟩
  have hw : ∀ v, t.writer v = s.writer v := fun v => by simp [State.writer, writers]
  have hf : ∀ v, t.profile v = s.profile v := fun v => by simp [State.profile, profiles]
  refine ⟨fun v => ?_, fun i r hr => ?_, ?_⟩
  · have hv := ho v
    rw [State.ownedSlots_eq] at hv
    rw [State.ownedSlots_eq, funext (owned v), hw, hf]
    exact hv
  · exact (State.entitles_congr hf fun v _ => by rw [hw]).mpr (entitled hq i r hr)
  · simpa only [State.profileLaw, hf] using hp

theorem KeepsOwnership.elsewhere (table : t.table = s.table) (writers : t.writers = s.writers)
    (profiles : t.profiles = s.profiles) : KeepsOwnership s t := by
  have hs : t.slot = s.slot := funext fun i => by simp [State.slot, table]
  exact .of_sameOwners writers profiles (fun v i => by simp [State.ownedBy, hs])
    fun h i r hr => h i r (hs ▸ hr)

end

/-- What an event that leaves a record its owner leaves of it: the precedence, and of an unowned record no staged
entry. -/
structure Record.SameOwner (r new : Record) : Prop where
  owner : new.owner = r.owner
  precedence : new.precedence = r.precedence
  staged : r.owner = none → r.staged = none → new.staged = none

theorem Record.SameOwner.entitles {r new : Record} (h : r.SameOwner new) (s : State) (hr : s.entitles r) :
    s.entitles new := by
  obtain ⟨owner, precedence, staged⟩ := h
  cases ho : r.owner with
  | none =>
    rw [s.entitles_of_unowned ho] at hr
    rw [s.entitles_of_unowned (owner.trans ho), precedence]
    exact ⟨hr.1, staged ho hr.2⟩
  | some v =>
    rw [s.entitles_of_owned ho] at hr
    rwa [s.entitles_of_owned (owner.trans ho), precedence]

section
variable (r : Record)

theorem Record.sameOwner_refresh : r.SameOwner r.refresh := by
  unfold Record.refresh
  split
  · exact ⟨rfl, rfl, fun _ h => h⟩
  · split <;> exact ⟨rfl, rfl, fun _ h => h⟩

theorem Record.sameOwner_unlatched (a : Bool) : r.SameOwner (r.unlatched a) := by
  unfold Record.unlatched
  split <;> exact ⟨rfl, rfl, fun _ h => h⟩

theorem Record.sameOwner_withFallback (v : Value) : r.SameOwner (r.withFallback v) := by
  unfold Record.withFallback
  split <;> exact ⟨rfl, rfl, fun _ h => h⟩

theorem Record.sameOwner_committed : r.SameOwner r.committed := by
  unfold Record.committed
  split
  · exact ⟨rfl, rfl, fun _ _ => rfl⟩
  · exact ⟨rfl, rfl, fun _ _ => rfl⟩
  · exact ⟨rfl, rfl, fun _ h => h⟩

theorem Record.sameOwner_freshnessExpired : r.SameOwner r.freshnessExpired := by
  unfold Record.freshnessExpired
  split <;> exact ⟨rfl, rfl, fun _ _ => rfl⟩

theorem Record.sameOwner_holdExpired (a : Bool) : r.SameOwner (r.holdExpired a) := by
  unfold Record.holdExpired
  split
  · split <;> exact ⟨rfl, rfl, fun _ h => h⟩
  · split <;> exact ⟨rfl, rfl, fun _ h => h⟩

end

theorem State.changeRecord_slot (s : State) {r new : Record} (entry : r.SameEntry new) (i j : SlotNo) :
    (s.changeRecord i r new).slot j = if i = j then .holding (r.after new) else s.slot j := by
  obtain ⟨⟨hi, hj, -⟩, -⟩ := s.changeRecord_spec i r new entry.sequence entry.publish entry.tag
  by_cases h : i = j
  · subst h; simpa using hi
  · simpa [h] using hj j (Ne.symm h)

theorem State.changeRecord_writers (s : State) {r new : Record} (entry : r.SameEntry new) (i : SlotNo) :
    (s.changeRecord i r new).writers = s.writers := by
  rw [s.changeRecord_eq i r new entry.sequence entry.publish entry.tag]; rfl

theorem State.changeRecord_profiles (s : State) {r new : Record} (entry : r.SameEntry new) (i : SlotNo) :
    (s.changeRecord i r new).profiles = s.profiles := by
  rw [s.changeRecord_eq i r new entry.sequence entry.publish entry.tag]; rfl

theorem State.entitles_after (s : State) (r new : Record) : s.entitles (r.after new) ↔ s.entitles new :=
  Iff.rfl

section
variable {s : State} {i : SlotNo} {r new : Record}

/-- A record takes new fields and keeps its owner. -/
theorem KeepsOwnership.change (holds : s.slot i = .holding r) (entry : r.SameEntry new)
    (owner : new.owner = r.owner) (entitled : s.entitles r → s.entitles new) :
    KeepsOwnership s (s.changeRecord i r new) := by
  refine .of_sameOwners (s.changeRecord_writers entry i) (s.changeRecord_profiles entry i) (fun v j => ?_)
    fun h j r' hr' => ?_
  · have hslot := s.changeRecord_slot entry i j
    by_cases hj : i = j
    · subst hj
      rw [State.ownedBy_holding (hslot.trans (if_pos rfl)), State.ownedBy_holding holds, ← owner]
      rfl
    · exact State.ownedBy_congr (hslot.trans (if_neg hj))
  · rw [s.changeRecord_slot entry] at hr'
    split at hr'
    · cases hr'
      exact (s.entitles_after r new).mpr (entitled (h i r holds))
    · exact h j r' hr'

theorem KeepsOwnership.changeFields (holds : s.slot i = .holding r) (entry : r.SameEntry new)
    (same : r.SameOwner new) : KeepsOwnership s (s.changeRecord i r new) :=
  .change holds entry same.owner (same.entitles s)

end

/-! ### Events on the owner of one record (R33) -/

/-- The record of one slot passes from its owner, if it has one, to another, if any: the owned counts follow, the new
owner has room for it, and the record left is entitled. -/
structure State.Transfers (s t : State) (i : SlotNo) : Prop where
  others : ∀ j, j ≠ i → t.slot j = s.slot j
  counts : ∀ v, t.writer v = { s.writer v with
    ownedCount := (s.writer v).ownedCount - (s.ownedBy v i).toNat + (t.ownedBy v i).toNat }
  profiles : t.profiles = s.profiles
  room : ∀ v, t.ownedBy v i = true → s.ownedBy v i = false → (s.writer v).ownedCount ≠ (s.profile v).quota
  entitled : ∀ r, t.slot i = .holding r → s.entitles r

theorem KeepsOwnership.of_transfers {s t : State} {i : SlotNo} (h : s.Transfers t i) : KeepsOwnership s t := by
  obtain ⟨others, counts, profiles, room, entitled⟩ := h
  refine ⟨fun ⟨ho, hq, hp⟩ => ?_⟩
  have hf : ∀ v, t.profile v = s.profile v := fun v => by simp [State.profile, profiles]
  have hb : ∀ v, (t.writer v).binding = (s.writer v).binding := fun v => by rw [counts]
  refine ⟨fun v => ?_, fun j r hr => ?_, ?_⟩
  · have hc := congrArg WriterSlot.ownedCount (counts v)
    have howned := length_filter_allSlots (p := s.ownedBy v) (q := t.ownedBy v) (i := i) fun j hj => by
      simp only [State.ownedBy, others j hj]
    have hpos : (s.ownedBy v i).toNat ≤ (allSlots.filter (s.ownedBy v)).length := by
      cases hi : s.ownedBy v i with
      | false => exact Nat.zero_le _
      | true => exact List.length_pos_of_mem (List.mem_filter.mpr ⟨mem_allSlots i, hi⟩)
    obtain ⟨hcount, hquota, hvacant⟩ := ho v
    rw [State.ownedSlots_eq] at hcount
    rw [State.ownedSlots_eq, hf, hb]
    dsimp only at hc
    refine ⟨by omega, ?_, fun hn => ?_⟩
    · by_cases hnew : t.ownedBy v i = true ∧ s.ownedBy v i = false
      · have hroom := room v hnew.1 hnew.2
        simp only [hnew, Bool.toNat_true, Bool.toNat_false] at hc
        omega
      · have hle : (t.ownedBy v i).toNat ≤ (s.ownedBy v i).toNat := by
          cases hs : s.ownedBy v i
          · simp [hs] at hnew; simp [hnew]
          · simpa using Bool.toNat_le _
        omega
    · have ht : t.ownedBy v i = false := by
        refine Bool.eq_false_iff.mpr fun ht => ?_
        obtain ⟨r, hr, hv⟩ := State.ownedBy_iff.mp ht
        exact ((s.entitles_of_owned hv).mp (entitled r hr)).2.2 hn
      simp [hc, hvacant hn, ht]
  · refine (State.entitles_congr hf fun v _ => by rw [hb]).mpr ?_
    by_cases hj : j = i
    · subst hj; exact entitled r hr
    · exact hq j r (others j hj ▸ hr)
  · simpa only [State.profileLaw, hf] using hp

theorem Record.lossRow_unowned (r : Record) (a : Bool) :
    (r.lossRow a).owner = none ∧ (r.lossRow a).precedence = 0 ∧ (r.lossRow a).staged = none := by
  unfold Record.lossRow
  dsimp only
  split
  · exact ⟨rfl, rfl, rfl⟩
  · split <;> exact ⟨rfl, rfl, rfl⟩
  · exact ⟨rfl, rfl, rfl⟩

/-- A record dropped is retired or unowned. -/
theorem State.droppedSlot_eq_holding {s : State} {gone : Record → Bool} {a : Bool} {i : SlotNo} {r : Record}
    (h : s.droppedSlot gone (fun r => r.lossRow a) i = .holding r) :
    r.owner = none ∧ r.precedence = 0 ∧ r.staged = none := by
  unfold State.droppedSlot at h
  split at h
  next old _ =>
    split at h
    · exact absurd h (s.retiredSlot_ne_holding old r)
    · cases h
      exact old.lossRow_unowned a
  next hn => exact absurd h (hn r)

theorem State.Drops.not_ownedBy {s t : State} {l : List SlotNo} {gone : Record → Bool} {a : Bool}
    (h : s.Drops t l gone fun r => r.lossRow a) {i : SlotNo} (hi : i ∈ l) (v : WriterNo) : t.ownedBy v i = false := by
  refine Bool.eq_false_iff.mpr fun ho => ?_
  obtain ⟨r, hr, hv⟩ := State.ownedBy_iff.mp ho
  rw [h.slot, if_pos hi] at hr
  obtain ⟨hnone, -⟩ := State.droppedSlot_eq_holding hr
  simp [hnone] at hv

/-- A record dropped leaves its owner, and goes to no other. -/
theorem State.Drops.transfers {s t : State} {i : SlotNo} {gone : Record → Bool} {a : Bool}
    (h : s.Drops t [i] gone fun r => r.lossRow a) : s.Transfers t i := by
  have hnot := h.not_ownedBy (List.mem_singleton_self i)
  refine ⟨fun j hj => ?_, fun v => ?_, ?_, fun v hv => ?_, fun r hr => ?_⟩
  · simpa [hj] using h.slot j
  · simp only [h.writers, hnot, length_filter_cons, List.filter_nil, List.length_nil, Bool.toNat_false, Nat.add_zero]
  · rw [h.rest]
  · simp [hnot] at hv
  · rw [h.slot, if_pos (List.mem_singleton_self i)] at hr
    obtain ⟨ho, hrest⟩ := State.droppedSlot_eq_holding hr
    exact (s.entitles_of_unowned ho).mpr hrest

theorem KeepsOwnership.loseOwnerAt (s : State) (i : SlotNo) : KeepsOwnership s (s.loseOwnerAt i) :=
  .of_transfers (s.loseOwnerAt_drops i).transfers

theorem KeepsOwnership.loseOwner {s : State} {i : SlotNo} {r : Record} (hs : s.slot i = .holding r) :
    KeepsOwnership s (s.loseOwner i r) := by
  have h := KeepsOwnership.loseOwnerAt s i
  rwa [State.loseOwnerAt, hs] at h

theorem KeepsOwnership.retireSlot (s : State) (i : SlotNo) : KeepsOwnership s (s.retireSlot i) :=
  .of_transfers (s.retireSlot_drops i fun r => r.lossRow false).transfers

theorem KeepsOwnership.retireRecord {s : State} {i : SlotNo} {r : Record} (hs : s.slot i = .holding r) :
    KeepsOwnership s (s.retireRecord i r) := by
  have h := KeepsOwnership.retireSlot s i
  rwa [State.retireSlot, hs] at h

/-- A record changes its owner, in a part whose owned counts have moved already. -/
theorem KeepsOwnership.claim {s u : State} {i : SlotNo} {r new : Record} (holds : s.slot i = .holding r)
    (table : u.table = s.table) (profiles : u.profiles = s.profiles) (entry : r.SameEntry new)
    (counts : ∀ v, u.writer v = { s.writer v with
      ownedCount := (s.writer v).ownedCount - (decide (r.owner = some v)).toNat +
        (decide (new.owner = some v)).toNat })
    (room : ∀ v, new.owner = some v → r.owner ≠ some v → (s.writer v).ownedCount ≠ (s.profile v).quota)
    (entitled : s.entitles new) : KeepsOwnership s (u.changeRecord i r new) := by
  have hslot := u.changeRecord_slot entry i
  have hi : (u.changeRecord i r new).slot i = .holding (r.after new) := by rw [hslot, if_pos rfl]
  have hs : ∀ v, s.ownedBy v i = decide (r.owner = some v) := fun v => State.ownedBy_holding holds
  have ht : ∀ v, (u.changeRecord i r new).ownedBy v i = decide (new.owner = some v) := fun v => by
    rw [State.ownedBy_holding hi]; rfl
  refine .of_transfers (i := i) ⟨fun j hj => ?_, fun v => ?_, ?_, fun v => ?_, fun r' hr' => ?_⟩
  · rw [hslot, if_neg (Ne.symm hj)]
    simp [State.slot, table]
  · rw [hs, ht, ← counts]
    simp [State.writer, u.changeRecord_writers entry]
  · rw [u.changeRecord_profiles entry, profiles]
  · simpa [hs, ht] using room v
  · cases hi.symm.trans hr'
    exact (s.entitles_after r new).mpr entitled

/-! ### Events on writers and profiles (chapter 2) -/

section
variable {s : State} {w : WriterNo}

/-- A writer becomes ADMITTED, or, where it owns no record, VACANT. -/
theorem KeepsOwnership.bind (b : Option PortId) (h : b = none → ∀ i, s.ownedBy w i = false) :
    KeepsOwnership s (s.setWriter w { s.writer w with binding := b }) := by
  refine ⟨fun ⟨ho, hq, hp⟩ => ?_⟩
  refine ⟨fun v => ?_, fun i r hr => ?_, hp⟩
  · obtain ⟨hcount, hquota, hvacant⟩ := ho v
    by_cases hv : w = v
    · subst hv
      refine ⟨(by simpa using hcount : _ = (s.ownedSlots w).length), by simpa using hquota, fun hn => ?_⟩
      have hnone : b = none := by simpa using hn
      rw [State.ownedSlots_eq, List.filter_eq_nil_iff.mpr fun i _ => by simp [h hnone i]] at hcount
      simpa using hcount
    · have hw : (s.setWriter w { s.writer w with binding := b }).writer v = s.writer v := by simp [hv]
      rw [hw]
      exact ⟨hcount, hquota, hvacant⟩
  · cases hr' : r.owner with
    | none =>
      have hr0 := (s.entitles_of_unowned hr').mp (hq i r hr)
      exact (State.entitles_of_unowned _ hr').mpr hr0
    | some v =>
      have hr0 := (s.entitles_of_owned hr').mp (hq i r hr)
      refine (State.entitles_of_owned _ hr').mpr ⟨hr0.1, hr0.2.1, ?_⟩
      by_cases hv : w = v
      · subst hv
        have hown : s.ownedBy w i = true := State.ownedBy_iff.mpr ⟨r, hr, hr'⟩
        have hb : b ≠ none := fun hnone => by simp [h hnone i] at hown
        simpa using hb
      · simpa [hv] using hr0.2.2

theorem KeepsOwnership.setProfile {new : Profile} (h0 : w ≠ 0) (hb : (s.writer w).binding = none)
    (hr : new.ceiling ≤ 15 ∧ new.quota ≤ 256) : KeepsOwnership s (s.setProfile w new) := by
  refine ⟨fun ⟨ho, hq, hp0, hp⟩ => ?_⟩
  refine ⟨fun v => ?_, fun i r hr' => ?_, ?_, fun v => ?_⟩
  · obtain ⟨hcount, hquota, hvacant⟩ := ho v
    refine ⟨hcount, ?_, hvacant⟩
    by_cases hv : w = v
    · subst hv; simp [hvacant hb]
    · simpa [hv] using hquota
  · refine (?_ : (s.setProfile w new).entitles r)
    have hr0 := hq i r hr'
    cases hr1 : r.owner with
    | none => exact (State.entitles_of_unowned _ hr1).mpr ((s.entitles_of_unowned hr1).mp hr0)
    | some v =>
      have hr2 := (s.entitles_of_owned hr1).mp hr0
      have hv : w ≠ v := fun e => hr2.2.2 (e ▸ hb)
      simpa [State.entitles_of_owned _ hr1, hv] using hr2
  · simpa [h0] using hp0
  · by_cases hv : w = v
    · subst hv; simpa using hr
    · simpa [hv] using hp v

end

theorem profile?_inRange {rights ceiling : Byte} {quota : Word16} {new : Profile}
    (h : profile? rights ceiling quota = some new) : new.ceiling ≤ 15 ∧ new.quota ≤ 256 := by
  unfold profile? at h
  split at h
  · split at h
    · cases h; assumption
    · cases h
  · cases h

/-! ### Events that concern no record and no writer -/

section
variable (s : State)

theorem KeepsOwnership.setPort (p : PortId) (x : Port) : KeepsOwnership s (s.setPort p x) :=
  .elsewhere (by simp) (by simp) (by simp)

theorem KeepsOwnership.setTrigger (l : TriggerLine) (x : TriggerEntry) : KeepsOwnership s (s.setTrigger l x) :=
  .elsewhere (by simp) (by simp) (by simp)

theorem KeepsOwnership.setGroupEntry (g : GroupNo) (x : GroupEntry) : KeepsOwnership s (s.setGroupEntry g x) :=
  .elsewhere rfl rfl rfl

theorem KeepsOwnership.setSafe (x : SafeState) : KeepsOwnership s (s.setSafe x) :=
  .elsewhere rfl rfl rfl

theorem KeepsOwnership.setLink (x : Link) : KeepsOwnership s (s.setLink x) :=
  .elsewhere rfl rfl rfl

theorem KeepsOwnership.answered (a : Applied) : KeepsOwnership a.2 (answered a) :=
  .elsewhere rfl rfl rfl

theorem KeepsOwnership.notifyWriter (w : WriterNo) (n : Notice) : KeepsOwnership s (s.notifyWriter w n) := by
  unfold State.notifyWriter
  split
  · exact .setPort ..
  · exact .refl

theorem KeepsOwnership.notifyOwner (r : Record) (n : Notice) : KeepsOwnership s (s.notifyOwner r n) := by
  unfold State.notifyOwner
  split
  · exact .notifyWriter ..
  · exact .refl

/-- A slot without a record stays one (R15). -/
theorem KeepsOwnership.freeSlot (i : SlotNo) : KeepsOwnership s (s.freeSlot i) := by
  refine .of_sameOwners (by rw [State.freeSlot_eq]) (by rw [State.freeSlot_eq]) (fun v j => ?_) fun h j r hr => ?_
  · have hslot := s.freeSlot_slot i j
    by_cases hi : i = j ∧ (s.slot i).isVacating = true
    · obtain ⟨rfl, hv⟩ := hi
      have hnone : (s.slot i).record? = none := by cases hs : s.slot i <;> simp [hs] at hv ⊢
      rw [State.ownedBy_of_record?_none hnone, State.ownedBy_of_record?_none (by simp [hslot, hv])]
    · exact State.ownedBy_congr (hslot.trans (if_neg hi))
  · rw [State.freeSlot_slot] at hr
    split at hr
    · cases hr
    · exact h j r hr

theorem KeepsOwnership.freeSlots (l : List SlotNo) : KeepsOwnership s (l.foldl State.freeSlot s) :=
  .foldl KeepsOwnership.freeSlot l

theorem KeepsOwnership.tick : KeepsOwnership s s.tick := by
  refine .of_sameOwners rfl rfl (fun v i => ?_) fun h i r hr => ?_
  · unfold State.ownedBy
    rw [State.tick_slot]
    cases s.slot i <;> rfl
  · rw [State.tick_slot] at hr
    cases hs : s.slot i with
    | holding r' =>
      rw [hs] at hr
      cases hr
      exact h i r' hs
    | free => simp [hs, Slot.tick] at hr
    | vacating => simp [hs, Slot.tick] at hr

theorem KeepsOwnership.afterReset : KeepsOwnership s s.afterReset := by
  have hreset : State.reset.ownershipLaws :=
    State.reset.ownershipLaws_iff.mpr
      ⟨resetStateIsLawful.owned, resetStateIsLawful.precedence, resetStateIsLawful.profiles⟩
  exact ⟨fun _ => (KeepsOwnership.elsewhere (s := State.reset) rfl rfl rfl).law hreset⟩

end

/-! ### The shared operations keep ownership -/

theorem KeepsOwnership.addRecord {s : State} {i : SlotNo} {r : Record} (hfree : s.slot i = .free)
    (ho : r.owner = none) (hr : r.precedence = 0 ∧ r.staged = none) : KeepsOwnership s (s.addRecord i r) := by
  refine .of_sameOwners rfl rfl (fun v j => ?_) fun h j r' hr' => ?_
  · have hslot := s.addRecord_slot i j r
    by_cases hj : i = j
    · subst hj
      rw [State.ownedBy_holding (hslot.trans (if_pos rfl)), State.ownedBy_of_record?_none (by simp [hfree]), ho]
      simp
    · exact State.ownedBy_congr (hslot.trans (if_neg hj))
  · rw [State.addRecord_slot] at hr'
    split at hr'
    · cases hr'
      exact (s.entitles_of_unowned ho).mpr hr
    · exact h j r' hr'

/-- The record a CREATE writes is unowned (R18). -/
theorem createRecord?_unowned {tag : Word16} {group : Byte} {lower upper fallback : Value} {clamp publish : Byte}
    {freshness : Word16} {holdPolicy holdPeriod orphan : Byte} {r : Record}
    (hr : createRecord? tag group lower upper fallback clamp publish freshness holdPolicy holdPeriod orphan = some r) :
    r.owner = none ∧ r.precedence = 0 ∧ r.staged = none := by
  unfold createRecord? at hr
  split at hr
  · split at hr
    · cases hr
      exact ⟨rfl, rfl, rfl⟩
    · cases hr
  · cases hr

theorem KeepsOwnership.closeCursorOf (s : State) (p : PortId) (w : WriterNo) :
    KeepsOwnership s (s.closeCursorOf p w) := by
  unfold State.closeCursorOf
  split
  · split
    · exact .setPort ..
    · exact .refl
  · exact .refl

theorem State.slot_closeCursorOf (s : State) (p : PortId) (w : WriterNo) (i : SlotNo) :
    (s.closeCursorOf p w).slot i = s.slot i := by
  rw [State.closeCursorOf_eq]; rfl

/-- Once every record it owned has lost its owner, a writer may become VACANT (R38). -/
theorem KeepsOwnership.dismissWriter (s : State) (w : WriterNo) : KeepsOwnership s (s.dismissWriter w) := by
  have hnot : ∀ i, ((s.ownedSlots w).foldl State.loseOwnerAt s).ownedBy w i = false := fun i => by
    have hd := s.loseOwners_drops (s.ownedSlots w) (allSlots_nodup.filter _)
    by_cases hi : i ∈ s.ownedSlots w
    · exact hd.not_ownedBy hi w
    · have hslot := (hd.slot i).trans (if_neg hi)
      rw [State.ownedSlots_eq, List.mem_filter, not_and] at hi
      rw [State.ownedBy_congr hslot]
      simpa using hi (mem_allSlots i)
  unfold State.dismissWriter
  refine (Keeps.foldl KeepsOwnership.loseOwnerAt (s.ownedSlots w)).trans ?_
  dsimp only
  split
  next p _ =>
    exact (KeepsOwnership.closeCursorOf _ p w).trans <| KeepsOwnership.bind none fun _ i =>
      (State.ownedBy_congr (State.slot_closeCursorOf _ p w i)).trans (hnot i)
  · exact KeepsOwnership.bind none fun _ => hnot

theorem KeepsOwnership.clearTable (s : State) : KeepsOwnership s s.clearTable :=
  (Keeps.foldl KeepsOwnership.retireSlot s.indexedSlots).trans <|
    (KeepsOwnership.setPort _ .a _).trans (KeepsOwnership.setPort _ .b _)

section
variable {s : State} {i : SlotNo} {r : Record} {w : WriterNo} {prec : Nat}

theorem KeepsOwnership.claimUnowned (hs : s.slot i = .holding r) (ho : r.owner = none)
    (hroom : (s.writer w).ownedCount ≠ (s.profile w).quota)
    (hprec : 1 ≤ prec ∧ prec ≤ (s.profile w).ceiling ∧ (s.writer w).binding ≠ none) :
    KeepsOwnership s (s.claimUnowned i r w prec) := by
  refine .claim (u := s.raiseOwned w) hs rfl rfl ⟨rfl, rfl, rfl⟩ (fun v => ?_) (fun v hv _ => ?_)
    ((s.entitles_of_owned rfl).mpr hprec)
  · by_cases hv : w = v
    · subst hv; simp [State.raiseOwned, ho]
    · simp [State.raiseOwned, ho, hv]
  · cases hv; exact hroom

theorem KeepsOwnership.reclaim (hs : s.slot i = .holding r) (ho : r.owner = some w)
    (hprec : 1 ≤ prec ∧ prec ≤ (s.profile w).ceiling ∧ (s.writer w).binding ≠ none) :
    KeepsOwnership s (s.reclaim i r prec) :=
  .change hs ⟨rfl, rfl, rfl⟩ rfl fun _ => (s.entitles_of_owned (r := { r with precedence := prec }) ho).mpr hprec

theorem KeepsOwnership.takeOver {old : WriterNo} (hs : s.slot i = .holding r) (ho : r.owner = some old)
    (hne : old ≠ w) (hroom : (s.writer w).ownedCount ≠ (s.profile w).quota)
    (hprec : 1 ≤ prec ∧ prec ≤ (s.profile w).ceiling ∧ (s.writer w).binding ≠ none) :
    KeepsOwnership s (s.takeOver i r old w prec) := by
  refine (KeepsOwnership.claim (u := (s.lowerOwned old).raiseOwned w) (new := r.takenOver w prec) hs rfl rfl
    ⟨rfl, rfl, rfl⟩ (fun v => ?_) (fun v hv _ => ?_) ((s.entitles_of_owned rfl).mpr hprec)).trans
    (KeepsOwnership.notifyWriter ..)
  · by_cases hv : w = v
    · subst hv; simp [State.raiseOwned, State.lowerOwned, Record.takenOver, ho, hne]
    · by_cases hold : old = v <;>
        simp [State.raiseOwned, State.lowerOwned, Record.takenOver, ho, hv, hold]
  · cases hv; exact hroom

end

theorem KeepsOwnership.commitSlot (target : CommitTarget) (s : State) (i : SlotNo) :
    KeepsOwnership s (s.commitSlot target i) := by
  unfold State.commitSlot
  split
  next r hs =>
    split
    · exact .changeFields hs r.sameEntry_committed r.sameOwner_committed
    · exact .refl
  · exact .refl

theorem KeepsOwnership.commitGroup (target : CommitTarget) (s : State) (g : GroupNo) :
    KeepsOwnership s (s.commitGroup target g) := by
  unfold State.commitGroup
  split
  · exact .setGroupEntry ..
  · exact .refl

theorem KeepsOwnership.commit (s : State) (target : CommitTarget) : KeepsOwnership s (s.commit target) :=
  (Keeps.foldl (KeepsOwnership.commitSlot target) allSlots).trans <|
    .foldl (KeepsOwnership.commitGroup target) allGroups

/-! ### The operations keep ownership -/

section
variable (p : PortId) (w : WriterNo) (s : State)

theorem KeepsOwnership.opAdmit : KeepsOwnership s (opAdmit p w s).2 :=
  .require fun _ => KeepsOwnership.bind (some p) (by simp)

theorem KeepsOwnership.opDismiss (target : Byte) : KeepsOwnership s (opDismiss p w target s).2 := by
  refine .admitted fun _ => .require fun _ => ?_
  split
  · exact .refl
  · exact .require fun _ => KeepsOwnership.dismissWriter ..

theorem KeepsOwnership.opSetProfile (target rights ceiling : Byte) (quota : Word16) :
    KeepsOwnership s (opSetProfile p w target rights ceiling quota s).2 := by
  refine .admitted fun _ => .require fun _ => ?_
  split
  next hnew => exact .require fun h0 => .require fun hb => KeepsOwnership.setProfile h0 hb (profile?_inRange hnew)
  · exact .refl

theorem KeepsOwnership.opReadProfile (target : Byte) : KeepsOwnership s (opReadProfile p w target s).2 := by
  refine .admitted fun _ => ?_
  split <;> exact .refl

theorem KeepsOwnership.opCreate (tag : Word16) (group : Byte) (lower upper fallback : Value) (clamp publish : Byte)
    (freshness : Word16) (holdPolicy holdPeriod orphan : Byte) :
    KeepsOwnership s
      (opCreate p w tag group lower upper fallback clamp publish freshness holdPolicy holdPeriod orphan s).2 := by
  refine .admitted fun _ => .require fun _ => ?_
  split
  · exact .refl
  next r hr =>
    refine .require fun _ => .require fun _ => ?_
    split
    · exact .refl
    next i hi =>
      obtain ⟨ho, hrest⟩ := createRecord?_unowned hr
      exact KeepsOwnership.addRecord (by simpa using List.find?_some hi) ho hrest

theorem KeepsOwnership.opRetire (tag : Word16) : KeepsOwnership s (opRetire p w tag s).2 :=
  .admitted fun _ => .require fun _ => .require fun _ => .onRecord fun _ _ hs => .require fun _ =>
    KeepsOwnership.retireRecord hs

theorem KeepsOwnership.opRead (tag : Word16) : KeepsOwnership s (opRead p w tag s).2 :=
  .admitted fun _ => .require fun _ => .onRecord fun _ _ _ => .refl

theorem KeepsOwnership.opClearTable : KeepsOwnership s (opClearTable p w s).2 :=
  .admitted fun _ => .require fun _ => .require fun _ => KeepsOwnership.clearTable s

/-- The checks of a CLAIM are what its record needs: a bound writer, a precedence up to its ceiling, and room under its
quota (R50). -/
theorem KeepsOwnership.opClaim (tag : Word16) (precedence : Byte) :
    KeepsOwnership s (opClaim p w tag precedence s).2 := by
  refine .admitted fun hw => .require fun _ => .require fun hrange => .require fun hceiling =>
    .onRecord fun i r hs => ?_
  have hprec : 1 ≤ precedence.toNat ∧ precedence.toNat ≤ (s.profile w).ceiling ∧ (s.writer w).binding ≠ none :=
    ⟨hrange.1, hceiling, by rw [show (s.writer w).binding = some p from hw]; simp⟩
  split
  next ho => exact .require fun hroom => KeepsOwnership.claimUnowned hs ho hroom hprec
  next old ho =>
    split
    next he => exact KeepsOwnership.reclaim hs (he ▸ ho) hprec
    next hne =>
      split
      · exact .refl
      · split
        · exact .refl
        · exact .require fun hroom => KeepsOwnership.takeOver hs ho hne hroom hprec

theorem KeepsOwnership.opRelease (tag : Word16) : KeepsOwnership s (opRelease p w tag s).2 :=
  .admitted fun _ => .require fun _ => .onRecord fun _ _ hs => .require fun _ => KeepsOwnership.loseOwner hs

theorem KeepsOwnership.opStage (tag : Word16) (value : Value) : KeepsOwnership s (opStage p w tag value s).2 := by
  refine .onOwned fun i r hs ho => ?_
  split
  · exact .refl
  next e _ =>
    have entry := r.sameEntry_refresh
    have same := r.sameOwner_refresh
    exact KeepsOwnership.changeFields hs ⟨entry.tag, entry.publish, entry.sequence⟩
      ⟨same.owner, same.precedence, fun hn => by simp [ho] at hn⟩

theorem KeepsOwnership.opTouch (tag : Word16) : KeepsOwnership s (opTouch p w tag s).2 :=
  .onOwned fun _ r hs _ => KeepsOwnership.changeFields hs r.sameEntry_refresh r.sameOwner_refresh

theorem KeepsOwnership.opUnlatch (tag : Word16) : KeepsOwnership s (opUnlatch p w tag s).2 :=
  .onOwned fun _ r hs _ => .require fun _ =>
    KeepsOwnership.changeFields hs (r.sameEntry_unlatched _) (r.sameOwner_unlatched _)

theorem KeepsOwnership.opSetLimits (tag : Word16) (lower upper : Value) :
    KeepsOwnership s (opSetLimits p w tag lower upper s).2 := by
  refine .onShaped fun i r hs => ?_
  dsimp only
  split
  · exact .refl
  · exact KeepsOwnership.changeFields hs ⟨rfl, rfl, rfl⟩ ⟨rfl, rfl, fun _ h => h⟩

theorem KeepsOwnership.opSetFallback (tag : Word16) (value : Value) :
    KeepsOwnership s (opSetFallback p w tag value s).2 :=
  .onShaped fun _ r hs => .require fun _ =>
    KeepsOwnership.changeFields hs (r.sameEntry_withFallback _) (r.sameOwner_withFallback _)

theorem KeepsOwnership.opSetSupervision (tag freshness : Word16) (holdPolicy holdPeriod orphan : Byte) :
    KeepsOwnership s (opSetSupervision p w tag freshness holdPolicy holdPeriod orphan s).2 := by
  unfold Machine.opSetSupervision
  split
  · exact .onShaped fun _ _ _ => .refl
  · exact .onShaped fun _ _ hs => KeepsOwnership.changeFields hs ⟨rfl, rfl, rfl⟩ ⟨rfl, rfl, fun _ h => h⟩

theorem KeepsOwnership.opSetGroup (tag : Word16) (group : Byte) : KeepsOwnership s (opSetGroup p w tag group s).2 := by
  unfold Machine.opSetGroup
  split
  · exact .onShaped fun _ _ _ => .refl
  · exact .onShaped fun _ _ hs => KeepsOwnership.changeFields hs ⟨rfl, rfl, rfl⟩ ⟨rfl, rfl, fun _ h => h⟩

theorem KeepsOwnership.opCommit (group : Byte) : KeepsOwnership s (opCommit p w group s).2 := by
  refine .admitted fun _ => .require fun _ => ?_
  split
  · exact .refl
  · split
    · exact KeepsOwnership.setSafe ..
    · exact KeepsOwnership.commit ..

theorem KeepsOwnership.opSetCycle (group period : Byte) : KeepsOwnership s (opSetCycle p w group period s).2 := by
  refine .admitted fun _ => .require fun _ => ?_
  split
  · exact .refl
  · exact KeepsOwnership.setGroupEntry ..

theorem KeepsOwnership.opSetTrigger (line enabled group : Byte) :
    KeepsOwnership s (opSetTrigger p w line enabled group s).2 := by
  refine .admitted fun _ => .require fun _ => ?_
  split
  · exact KeepsOwnership.setTrigger ..
  · exact .refl

theorem KeepsOwnership.opReadGroup (group : Byte) : KeepsOwnership s (opReadGroup p w group s).2 := by
  refine .admitted fun _ => ?_
  split <;> exact .refl

theorem KeepsOwnership.opLinkStart : KeepsOwnership s (opLinkStart p w s).2 :=
  .admitted fun _ => .require fun _ => .require fun _ => KeepsOwnership.setLink ..

theorem KeepsOwnership.opLinkFlush : KeepsOwnership s (opLinkFlush p w s).2 :=
  .admitted fun _ => .require fun _ => .require fun _ =>
    (KeepsOwnership.freeSlots s s.retiringSlots).trans (KeepsOwnership.setLink ..)

theorem KeepsOwnership.opResync : KeepsOwnership s (opResync p w s).2 :=
  .admitted fun _ => .require fun _ => .require fun _ => KeepsOwnership.setLink ..

theorem KeepsOwnership.applyLinkSettings (new : LinkSettings) : KeepsOwnership s (s.applyLinkSettings new) := by
  have configured := KeepsOwnership.setLink s { s.link with settings := new }
  have disabled : ∀ t : State, KeepsOwnership t t.disableLink := fun t =>
    (KeepsOwnership.freeSlots t allSlots).trans (KeepsOwnership.setLink ..)
  unfold State.applyLinkSettings
  dsimp only
  split
  · split
    · exact configured.trans (KeepsOwnership.setLink ..)
    · exact configured
  · split
    · exact configured
    · exact configured.trans (disabled _)

theorem KeepsOwnership.opSetLink (enable bitRate timeout retry : Byte) :
    KeepsOwnership s (opSetLink p w enable bitRate timeout retry s).2 := by
  refine .admitted fun _ => .require fun _ => ?_
  split
  · exact .refl
  · exact KeepsOwnership.applyLinkSettings ..

theorem KeepsOwnership.opScan (stateSet owner group : Byte) :
    KeepsOwnership s (opScan p w stateSet owner group s).2 := by
  refine .admitted fun _ => ?_
  split
  · exact .refl
  · exact KeepsOwnership.setPort ..

theorem KeepsOwnership.opScanNext : KeepsOwnership s (opScanNext p w s).2 := by
  refine .admitted fun _ => ?_
  split
  · exact .refl
  · exact .require fun _ => KeepsOwnership.setPort ..

theorem KeepsOwnership.opPoll : KeepsOwnership s (opPoll p w s).2 :=
  .admitted fun _ => KeepsOwnership.setPort ..

theorem KeepsOwnership.opStatus : KeepsOwnership s (opStatus p w s).2 :=
  .admitted fun _ => KeepsOwnership.setSafe ..

end

theorem KeepsOwnership.applyOp (p : PortId) (w : WriterNo) (op : Op) (s : State) :
    KeepsOwnership s (applyOp p w op s).2 := by
  cases op with
  | admitWriter => exact KeepsOwnership.opAdmit ..
  | dismiss => exact KeepsOwnership.opDismiss ..
  | setProfile => exact KeepsOwnership.opSetProfile ..
  | readProfile => exact KeepsOwnership.opReadProfile ..
  | create => exact KeepsOwnership.opCreate ..
  | retire => exact KeepsOwnership.opRetire ..
  | read => exact KeepsOwnership.opRead ..
  | claim => exact KeepsOwnership.opClaim ..
  | release => exact KeepsOwnership.opRelease ..
  | stage => exact KeepsOwnership.opStage ..
  | touch => exact KeepsOwnership.opTouch ..
  | unlatch => exact KeepsOwnership.opUnlatch ..
  | setLimits => exact KeepsOwnership.opSetLimits ..
  | setFallback => exact KeepsOwnership.opSetFallback ..
  | setSupervision => exact KeepsOwnership.opSetSupervision ..
  | setGroup => exact KeepsOwnership.opSetGroup ..
  | commit => exact KeepsOwnership.opCommit ..
  | setCycle => exact KeepsOwnership.opSetCycle ..
  | setTrigger => exact KeepsOwnership.opSetTrigger ..
  | readGroup => exact KeepsOwnership.opReadGroup ..
  | linkStart => exact KeepsOwnership.opLinkStart ..
  | linkFlush => exact KeepsOwnership.opLinkFlush ..
  | resync => exact KeepsOwnership.opResync ..
  | setLink => exact KeepsOwnership.opSetLink ..
  | scan => exact KeepsOwnership.opScan ..
  | scanNext => exact KeepsOwnership.opScanNext ..
  | poll => exact KeepsOwnership.opPoll ..
  | status => exact KeepsOwnership.opStatus ..
  | clearTable => exact KeepsOwnership.opClearTable ..

theorem Keeps.applyBatch {P : State → Prop} {p : PortId} {w : WriterNo}
    (hop : ∀ op s, Keeps P s (applyOp p w op s).2) (ops : List Op) (s : State) :
    Keeps P s (applyBatch p w ops s).2 := by
  induction ops generalizing s with
  | nil => exact .refl
  | cons op rest ih =>
    unfold Machine.applyBatch
    dsimp only
    split
    · exact (hop op s).trans (ih _)
    · exact hop op s

/-! ### Laws that read neither a port nor the link -/

/-- A law that no change of a port or of the link breaks, nor the freeing of a VACATING slot (R15), nor one of the
model's own fields. -/
structure IgnoresPortsAndLink (P : State → Prop) : Prop where
  port : ∀ s p x, Keeps P s (s.setPort p x)
  link : ∀ s x, Keeps P s (s.setLink x)
  freed : ∀ s i, Keeps P s (s.freeSlot i)
  rxp : ∀ s r, Keeps P s { s with rxp := r }
  choices : ∀ s n, Keeps P s { s with choices := n }
  pending : ∀ s q, Keeps P s { s with pending := q }

section
variable {P : State → Prop} (h : IgnoresPortsAndLink P) (s : State) (p : PortId)
include h

theorem Keeps.selectActivation : Keeps P s (s.selectActivation p) := by
  unfold State.selectActivation
  split
  · exact h.port ..
  · exact .refl

theorem Keeps.request (bytes : List Byte) : Keeps P s (s.request p bytes) := by
  unfold State.request
  split
  · exact h.port ..
  · exact .refl

theorem Keeps.frameCompletion : Keeps P s (s.frameCompletion p) := by
  unfold State.frameCompletion
  split
  · split
    case h_4 => exact .refl
    all_goals exact h.port ..
  · exact .refl

theorem Keeps.readout : Keeps P s (s.readout p) := by
  unfold State.readout
  split
  · exact h.port ..
  · exact .refl

theorem Keeps.readoutEnd : Keeps P s (s.readoutEnd p) := by
  unfold State.readoutEnd
  split
  · exact h.port ..
  · exact h.port ..
  · exact .refl

theorem Keeps.transactionIgnored (first : Option Byte) : Keeps P s (s.transactionIgnored p first) := by
  unfold State.transactionIgnored
  split
  · split
    · exact h.port ..
    · split
      · exact .refl
      · exact h.port ..
  · exact .refl

theorem Keeps.portBreak : Keeps P s (s.portBreak p) := by
  unfold State.portBreak
  split
  · exact .refl
  · split <;> exact h.port ..

theorem Keeps.breakCompletion : Keeps P s (s.breakCompletion p) := by
  unfold State.breakCompletion
  split
  · exact h.port ..
  · exact .refl

theorem Keeps.clockEdge : Keeps P s (s.clockEdge p) := by
  unfold State.clockEdge
  split
  · exact .refl
  · exact .refl
  · exact h.port ..

theorem Keeps.notifyBoth (n : Notice) : Keeps P s (s.notifyBoth n) :=
  (h.port s .a _).trans (h.port _ .b _)

theorem Keeps.sendEvent : Keeps P s s.sendEvent := by
  unfold State.sendEvent
  split
  · exact (h.choices s _).trans (h.link s.counted _)
  · exact .refl

theorem Keeps.completeFrame (f : InFlight) : Keeps P s (s.completeFrame f) := by
  unfold State.completeFrame
  dsimp only
  split
  · exact (h.freed s _).trans (h.link _ _)
  · exact h.link ..

theorem Keeps.failTransmission (f : InFlight) : Keeps P s (s.failTransmission f) := by
  unfold State.failTransmission
  split
  · exact h.link ..
  · exact (h.link s _).trans (Keeps.notifyBoth h ..)

theorem Keeps.endOfTransmission : Keeps P s s.endOfTransmission := by
  unfold State.endOfTransmission
  split
  · split
    · exact Keeps.completeFrame h ..
    · exact h.link ..
  · exact .refl

theorem Keeps.ackTimerExpiry : Keeps P s s.ackTimerExpiry := by
  unfold State.ackTimerExpiry
  split
  · exact Keeps.failTransmission h ..
  · exact .refl

theorem Keeps.judgeAck (kind number : Byte) : Keeps P s (s.judgeAck kind number) := by
  unfold State.judgeAck
  split
  · exact .refl
  split
  · exact .refl
  split
  · split
    · exact Keeps.completeFrame h ..
    · split
      · exact Keeps.failTransmission h ..
      · exact .refl
  · split
    · exact h.link ..
    · exact .refl
  · exact .refl

theorem Keeps.acknowledgement (kind number : Byte) : Keeps P s (s.acknowledgement kind number) := by
  unfold State.acknowledgement
  split
  · exact .refl
  · exact (h.link s _).trans (Keeps.judgeAck h ..)

theorem Keeps.receive (r : Reception) (byte : Byte) (stopHigh : Bool) : Keeps P s (s.receive r byte stopHigh) := by
  unfold State.receive
  split
  · exact .refl
  split
  · exact h.link ..
  split
  · exact h.link ..
  split
  · exact h.link ..
  · exact (h.link s _).trans (Keeps.judgeAck h ..)

theorem Keeps.rxpByte (byte : Byte) (stopHigh : Bool) (moment : RxpMoment) :
    Keeps P s (s.rxpByte byte stopHigh moment) := by
  unfold State.rxpByte
  split
  · unfold State.beginByte
    split
    · exact h.rxp ..
    · exact .refl
  · exact (h.rxp s none).trans (Keeps.receive h ..)

end

/-- A step keeps what the passing of time, every command and the model's own fields keep. -/
theorem Keeps.step {P : State → Prop} (h : IgnoresPortsAndLink P) (tick : ∀ s, Keeps P s s.tick)
    (command : ∀ {c s t}, exec c s = .next t → Keeps P s t) {s t : State} (hst : step s = .next t) : Keeps P s t := by
  unfold Machine.step at hst
  split at hst
  · exact (h.pending s _).trans (command hst)
  · split at hst
    · exact (h.choices s _).trans (command hst)
    · cases hst
      exact (h.choices s _).trans (tick s.counted)

/-! ### Every step keeps ownership -/

theorem ownershipLaws_ignoresPortsAndLink : IgnoresPortsAndLink State.ownershipLaws where
  port := KeepsOwnership.setPort
  link := KeepsOwnership.setLink
  freed := KeepsOwnership.freeSlot
  rxp _ _ := KeepsOwnership.elsewhere rfl rfl rfl
  choices _ _ := KeepsOwnership.elsewhere rfl rfl rfl
  pending _ _ := KeepsOwnership.elsewhere rfl rfl rfl

section
variable (s : State)

theorem KeepsOwnership.breakDismissal (p : PortId) : KeepsOwnership s (s.breakDismissal p) := by
  unfold State.breakDismissal
  split
  · exact KeepsOwnership.dismissWriter ..
  · exact .refl

theorem KeepsOwnership.batchApplication (p : PortId) : KeepsOwnership s (s.batchApplication p) := by
  unfold State.batchApplication
  split
  · split
    · exact (Keeps.applyBatch (KeepsOwnership.applyOp p _) _ s).trans (KeepsOwnership.setPort ..)
    · exact .refl
  · exact .refl

theorem KeepsOwnership.cycleExpiry (g : GroupNo) : KeepsOwnership s (s.cycleExpiry g) := by
  unfold State.cycleExpiry
  split
  · exact .refl
  · exact KeepsOwnership.commit ..

theorem KeepsOwnership.risingEdge (l : TriggerLine) : KeepsOwnership s (s.risingEdge l) := by
  unfold State.risingEdge
  split
  · split
    · exact KeepsOwnership.setSafe ..
    · exact KeepsOwnership.commit ..
  · exact .refl

theorem KeepsOwnership.freshnessExpiry (i : SlotNo) : KeepsOwnership s (s.freshnessExpiry i) := by
  unfold State.freshnessExpiry
  split
  next r hs =>
    split
    · exact (KeepsOwnership.changeFields hs r.sameEntry_freshnessExpired r.sameOwner_freshnessExpired).trans
        (KeepsOwnership.notifyOwner ..)
    · exact .refl
  · exact .refl

theorem KeepsOwnership.holdTimerExpiry (i : SlotNo) : KeepsOwnership s (s.holdTimerExpiry i) := by
  unfold State.holdTimerExpiry
  split
  next r hs =>
    split
    · refine (KeepsOwnership.changeFields hs (r.sameEntry_holdExpired s.safeActive) (r.sameOwner_holdExpired _)).trans
        ?_
      dsimp only
      split
      · exact KeepsOwnership.notifyOwner ..
      · exact .refl
    · exact .refl
  · exact .refl

theorem KeepsOwnership.safeNChange (high : Bool) : KeepsOwnership s (s.safeNChange high) := by
  unfold State.safeNChange
  split
  · exact .refl
  · exact KeepsOwnership.setSafe ..

theorem KeepsOwnership.holdForSafe (i : SlotNo) : KeepsOwnership s (s.holdForSafe i) := by
  unfold State.holdForSafe
  split
  next r hs =>
    split
    · exact KeepsOwnership.changeFields hs ⟨rfl, rfl, rfl⟩ ⟨rfl, rfl, fun _ h => h⟩
    · exact .refl
  · exact .refl

theorem KeepsOwnership.releaseFromSafe (i : SlotNo) : KeepsOwnership s (s.releaseFromSafe i) := by
  unfold State.releaseFromSafe
  split
  next r hs =>
    split
    · exact KeepsOwnership.changeFields hs ⟨rfl, rfl, rfl⟩ ⟨rfl, rfl, fun _ h => h⟩
    · exact .refl
  · exact .refl

theorem KeepsOwnership.startCycle (g : GroupNo) : KeepsOwnership s (s.startCycle g) := by
  unfold State.startCycle
  split
  · exact .refl
  · exact KeepsOwnership.setGroupEntry ..

theorem KeepsOwnership.safeEntry : KeepsOwnership s s.safeEntry := by
  unfold State.safeEntry
  split
  · exact (KeepsOwnership.setSafe ..).trans <| (Keeps.foldl KeepsOwnership.holdForSafe allSlots).trans <|
      (Keeps.foldl (fun s g => KeepsOwnership.setGroupEntry s g _) allGroups).trans <|
        Keeps.notifyBoth ownershipLaws_ignoresPortsAndLink ..
  · exact .refl

theorem KeepsOwnership.safeRelease : KeepsOwnership s s.safeRelease := by
  unfold State.safeRelease
  split
  · exact (KeepsOwnership.setSafe ..).trans <| (Keeps.foldl KeepsOwnership.releaseFromSafe allSlots).trans <|
      (Keeps.foldl KeepsOwnership.startCycle allGroups).trans <|
        Keeps.notifyBoth ownershipLaws_ignoresPortsAndLink ..
  · exact .refl

end

theorem KeepsOwnership.exec {c : Instr} {s t : State} (h : exec c s = .next t) : KeepsOwnership s t := by
  have blind := ownershipLaws_ignoresPortsAndLink
  cases c
  case powerOnReset => cases h; exact KeepsOwnership.afterReset s
  case rstN => cases h; exact KeepsOwnership.afterReset s
  case selectActivation => cases h; exact Keeps.selectActivation blind ..
  case request => cases h; exact Keeps.request blind ..
  case frameCompletion => cases h; exact Keeps.frameCompletion blind ..
  case readout => cases h; exact Keeps.readout blind ..
  case readoutEnd => cases h; exact Keeps.readoutEnd blind ..
  case transactionIgnored => cases h; exact Keeps.transactionIgnored blind ..
  case portBreak => cases h; exact Keeps.portBreak blind ..
  case breakDismissal => cases h; exact KeepsOwnership.breakDismissal ..
  case breakCompletion => cases h; exact Keeps.breakCompletion blind ..
  case batchApplication => cases h; exact KeepsOwnership.batchApplication ..
  case clockEdge => cases h; exact Keeps.clockEdge blind ..
  case selectRelease => cases h; exact blind.port ..
  case freshnessExpiry => cases h; exact KeepsOwnership.freshnessExpiry ..
  case holdTimerExpiry => cases h; exact KeepsOwnership.holdTimerExpiry ..
  case cycleTimerExpiry => cases h; exact KeepsOwnership.cycleExpiry ..
  case risingEdge => cases h; exact KeepsOwnership.risingEdge ..
  case safeNChange => cases h; exact KeepsOwnership.safeNChange ..
  case safeEntry => cases h; exact KeepsOwnership.safeEntry s
  case safeRelease => cases h; exact KeepsOwnership.safeRelease s
  case sendEvent => cases h; exact Keeps.sendEvent blind s
  case endOfTransmission => cases h; exact Keeps.endOfTransmission blind s
  case acknowledgement => cases h; exact Keeps.acknowledgement blind ..
  case acknowledgementTimerExpiry => cases h; exact Keeps.ackTimerExpiry blind s
  case rxpByte => cases h; exact Keeps.rxpByte blind ..
  all_goals
    rw [exec_operation rfl] at h
    cases h
    exact (KeepsOwnership.applyOp ..).trans (KeepsOwnership.answered _)

/-- Settles O57: every command keeps the laws of ownership together. A claim, a takeover and a loss of owner move the
owned counts with the record they change; a writer becomes VACANT once it owns nothing. -/
theorem stepKeepsOwnershipLaws : Obligations.StepKeepsOwnershipLaws :=
  fun s t owned precedence profiles h =>
    t.ownershipLaws_iff.mp <|
      (Keeps.step ownershipLaws_ignoresPortsAndLink KeepsOwnership.tick KeepsOwnership.exec h).law <|
        s.ownershipLaws_iff.mpr ⟨owned, precedence, profiles⟩

end Sys2Proof.Machine

namespace Sys2Proof.Machine

/-! ### Admission and port binding come first (R32) -/

theorem admitted_of_vacant {p : PortId} {w : WriterNo} {s : State} (h : (s.writer w).binding = none)
    (next : Applied) : admitted p w s next = refuse .notAdmitted s :=
  require_not _ _ _ _ (not_not_intro h)

theorem admitted_of_otherPort {p q : PortId} {w : WriterNo} {s : State} (h : (s.writer w).binding = some q)
    (hq : q ≠ p) (next : Applied) : admitted p w s next = refuse .wrongPort s := by
  unfold admitted
  rw [require_of _ _ _ _ (by simp [h]), require_not _ _ _ _ (by simpa [h] using hq)]

/-- Every operation but ADMIT goes on to its own checks from admission. -/
theorem applyOp_eq_admitted {op : Op} (h : op ≠ .admitWriter) (p : PortId) (w : WriterNo) (s : State) :
    ∃ next, applyOp p w op s = admitted p w s next := by
  cases op with
  | admitWriter => exact absurd rfl h
  | setSupervision =>
    simp only [applyOp, opSetSupervision]
    split <;> exact ⟨_, rfl⟩
  | setGroup =>
    simp only [applyOp, opSetGroup]
    split <;> exact ⟨_, rfl⟩
  | _ => exact ⟨_, rfl⟩

/-- Settles O6: an operation but ADMIT is refused by its admission step. -/
theorem admissionIsJudgedFirst : Obligations.AdmissionIsJudgedFirst := by
  intro c p w op s hc hop
  obtain ⟨next, hnext⟩ := applyOp_eq_admitted hop p w s
  refine ⟨fun h => ?_, fun q h hq => ?_⟩
  · rw [exec_operation hc, hnext, admitted_of_vacant h]; rfl
  · rw [exec_operation hc, hnext, admitted_of_otherPort h hq]; rfl

/-- Settles O7: ADMIT has the one check that its writer is VACANT. -/
theorem admitBindsVacantWriter : Obligations.AdmitBindsVacantWriter := by
  intro p w s
  refine ⟨fun h => ?_, fun howned => (howned w).2.2, fun h => ?_⟩
  · rw [exec_operation rfl, applyOp, opAdmit, require_of _ _ _ _ h]; rfl
  · rw [exec_operation rfl, applyOp, opAdmit, require_not _ _ _ _ h]; rfl

/-! ### The operands of the supervisor operations (R45, R102, R142) -/

theorem writerNo?_eq_none (b : Byte) : writerNo? b = none ↔ 7 < b.toNat := by
  unfold writerNo?
  split
  · simp; omega
  · simp; omega

theorem writerNo?_eq_some {b : Byte} {w : WriterNo} (h : writerNo? b = some w) : w.val = b.toNat := by
  unfold writerNo? at h
  split at h
  · cases h; rfl
  · cases h

/-- A test of the writer an operand names, in terms of its number. -/
theorem exists_writer_iff {b : Byte} {w : WriterNo} (h : writerNo? b = some w) (P : WriterNo → Prop) :
    (∃ v : WriterNo, v.val = b.toNat ∧ P v) ↔ P w := by
  have hw := writerNo?_eq_some h
  refine ⟨fun ⟨v, hv, hp⟩ => ?_, fun hp => ⟨w, hw, hp⟩⟩
  rwa [← Fin.ext (hv.trans hw.symm)]

theorem profile?_eq_none (rights ceiling : Byte) (quota : Word16) :
    profile? rights ceiling quota = none ↔ 63 < rights.toNat ∨ 15 < ceiling.toNat ∨ 256 < quota.toNat := by
  unfold profile? rights?
  by_cases hr : rights.toNat < 64
  · rw [if_pos hr]
    dsimp only
    split
    · simp; omega
    · simp; omega
  · rw [if_neg hr]
    simp; omega

theorem triggerLine?_eq_none (b : Byte) : triggerLine? b = none ↔ 1 < b.toNat := by
  unfold triggerLine?
  split
  next h => simp [h]
  · split
    next h => simp [h]
    · simp; bv_omega

theorem commitTarget?_eq_none (b : Byte) : commitTarget? b = none ↔ 15 < b.toNat := by
  unfold commitTarget?
  split
  · simp; omega
  · simp; omega

theorem bitRate?_eq_none (b : Byte) : bitRate? b = none ↔ ¬ (b = 1 ∨ b = 2 ∨ b = 4) := by
  unfold bitRate?
  split
  next h => simp [h]
  · split
    next h => simp [h]
    · split
      next h => simp [h]
      next h1 h2 h4 => exact ⟨fun _ => by rintro (h | h | h) <;> contradiction, fun _ => rfl⟩

theorem linkSettings?_eq_none (enable bitRate timeout retry : Byte) :
    linkSettings? enable bitRate timeout retry = none ↔
      1 < enable.toNat ∨ ¬ (bitRate = 1 ∨ bitRate = 2 ∨ bitRate = 4) ∨ timeout = 0 ∨ 15 < timeout.toNat ∨
        7 < retry.toNat := by
  have h0 : timeout = 0 ↔ timeout.toNat = 0 := by bv_omega
  rw [← yesNo?_eq_none, ← bitRate?_eq_none, h0]
  unfold linkSettings?
  split
  next he hr =>
    simp only [he, hr, reduceCtorEq, false_or]
    split
    · simp; omega
    · simp; omega
  next hnone =>
    refine ⟨fun _ => ?_, fun _ => rfl⟩
    by_contra hin
    simp only [not_or, ← ne_eq, Option.ne_none_iff_exists'] at hin
    obtain ⟨⟨e, he⟩, ⟨r, hr⟩, -⟩ := hin
    exact hnone e r he hr

/-! ### The supervisor operations answer by the first check that fails -/

section
variable {p : PortId} {w : WriterNo} {s : State}

theorem opDismiss_answers (hw : s.speaks p w) (target : Byte) :
    Answers (opDismiss p w target s) s
      (if w ≠ 0 ∧ target.toNat ≠ w.val then .noRight
       else if 7 < target.toNat then .badOperand
       else if ∃ v : WriterNo, v.val = target.toNat ∧ (s.writer v).binding = none then .badState
       else .ok) := by
  refine .admitted hw <| .require (by rw [ne_eq, ne_eq, ← not_or, not_not]) fun _ => ?_
  cases ht : writerNo? target with
  | none =>
    rw [if_pos ((writerNo?_eq_none target).mp ht)]
    exact .refuse
  | some t =>
    rw [if_neg fun hbad => by simp [(writerNo?_eq_none target).mpr hbad] at ht]
    exact .require (not_congr (exists_writer_iff ht fun v => (s.writer v).binding = none)).symm fun _ => .accept

theorem opSetProfile_answers (hw : s.speaks p w) (target rights ceiling : Byte) (quota : Word16) :
    Answers (opSetProfile p w target rights ceiling quota s) s
      (if w ≠ 0 then .noRight
       else if target = 0 ∨ 7 < target.toNat ∨ 63 < rights.toNat ∨ 15 < ceiling.toNat ∨ 256 < quota.toNat then
         .badOperand
       else if ∃ v : WriterNo, v.val = target.toNat ∧ (s.writer v).binding ≠ none then .writerBusy
       else .ok) := by
  refine .admitted hw <| .require not_ne_iff.symm fun _ => ?_
  split
  next t new ht hnew =>
    have h0 : target = 0 ↔ t = 0 := by
      have := writerNo?_eq_some ht
      rw [Fin.ext_iff]
      bv_omega
    refine .require ?_ fun _ => .require ?_ fun _ => .accept
    · rw [← profile?_eq_none, ← writerNo?_eq_none]
      simp only [ht, hnew, h0, reduceCtorEq, or_false, ne_eq]
    · rw [exists_writer_iff ht fun v => (s.writer v).binding ≠ none, not_ne_iff]
  next hnone =>
    rw [if_pos]
    · exact .refuse
    · rw [← profile?_eq_none, ← writerNo?_eq_none]
      by_contra hin
      simp only [not_or, ← ne_eq, Option.ne_none_iff_exists'] at hin
      obtain ⟨-, ⟨t, ht⟩, new, hnew⟩ := hin
      exact hnone t new ht hnew

theorem opClearTable_answers (hw : s.speaks p w) :
    Answers (opClearTable p w s) s
      (if w ≠ 0 then .noRight
       else if ∃ v : WriterNo, v ≠ 0 ∧ (s.writer v).binding ≠ none then .writerPresent
       else .ok) := by
  refine .admitted hw <| .require not_ne_iff.symm fun _ => .require ?_ fun _ => .accept
  simp [State.otherAdmitted, allWriters, Option.isSome_iff_ne_none]

theorem opSetTrigger_answers (hw : s.speaks p w) (line enabled group : Byte) :
    Answers (opSetTrigger p w line enabled group s) s
      (if w ≠ 0 then .noRight
       else if 1 < line.toNat ∨ 1 < enabled.toNat ∨ 15 < group.toNat then .badOperand
       else .ok) := by
  refine .admitted hw <| .require not_ne_iff.symm fun _ => ?_
  have hbad : 1 < line.toNat ∨ 1 < enabled.toNat ∨ 15 < group.toNat ↔
      triggerLine? line = none ∨ yesNo? enabled = none ∨ commitTarget? group = none := by
    rw [triggerLine?_eq_none, yesNo?_eq_none, commitTarget?_eq_none]
  split
  next l e t hl he ht =>
    rw [if_neg (by simp [hbad, hl, he, ht])]
    exact .accept
  next hnone =>
    rw [if_pos]
    · exact .refuse
    · rw [hbad]
      by_contra hin
      simp only [not_or, ← ne_eq, Option.ne_none_iff_exists'] at hin
      obtain ⟨⟨l, hl⟩, ⟨e, he⟩, t, ht⟩ := hin
      exact hnone l e t hl he ht

theorem opSetLink_answers (hw : s.speaks p w) (enable bitRate timeout retry : Byte) :
    Answers (opSetLink p w enable bitRate timeout retry s) s
      (if w ≠ 0 then .noRight
       else if 1 < enable.toNat ∨ ¬ (bitRate = 1 ∨ bitRate = 2 ∨ bitRate = 4) ∨ timeout = 0 ∨ 15 < timeout.toNat ∨
         7 < retry.toNat then .badOperand
       else .ok) := by
  refine .admitted hw <| .require not_ne_iff.symm fun _ => ?_
  have hbad := linkSettings?_eq_none enable bitRate timeout retry
  split
  next hnone =>
    rw [if_pos (hbad.mp hnone)]
    exact .refuse
  next hsome =>
    rw [if_neg fun hin => by simp [hbad.mpr hin] at hsome]
    exact .accept

end

/-- Settles O8: the five operations, each by its own steps. -/
theorem supervisorOperationsCheckInOrder : Obligations.SupervisorOperationsCheckInOrder :=
  fun _ _ _ hw =>
    ⟨fun target => answersInOrder_of_answers rfl (opDismiss_answers hw target),
      fun target rights ceiling quota =>
        answersInOrder_of_answers rfl (opSetProfile_answers hw target rights ceiling quota),
      answersInOrder_of_answers rfl (opClearTable_answers hw),
      fun line enabled group => answersInOrder_of_answers rfl (opSetTrigger_answers hw line enabled group),
      fun enable bitRate timeout retry =>
        answersInOrder_of_answers rfl (opSetLink_answers hw enable bitRate timeout retry)⟩

/-! ### SET_PROFILE and DISMISS accepted (R38, R45) -/

theorem profile?_encoded (rights : Rights) {ceiling quota : Nat} (hc : ceiling ≤ 15) (hq : quota ≤ 256) :
    profile? (rights.setWidth 8) (BitVec.ofNat 8 ceiling) (BitVec.ofNat 16 quota) =
      some { rights := rights, ceiling := ceiling, quota := quota } := by
  have hr : (rights.setWidth 8 : Byte).toNat < 64 := by bv_omega
  have hback : ((rights.setWidth 8 : Byte).setWidth 6 : Rights) = rights := by bv_omega
  have hc' : (BitVec.ofNat 8 ceiling).toNat = ceiling := by rw [BitVec.toNat_ofNat]; omega
  have hq' : (BitVec.ofNat 16 quota).toNat = quota := by rw [BitVec.toNat_ofNat]; omega
  simp only [profile?, rights?, if_pos hr, hback, hc', hq', if_pos (And.intro hc hq)]

/-- Settles O12: the operands read back make the profile. -/
theorem setProfileReplacesVacantWritersProfile : Obligations.SetProfileReplacesVacantWritersProfile := by
  intro p target rights ceiling quota s hw h0 hb hc hq
  have hop : opSetProfile p 0 (BitVec.ofNat 8 target.val) (rights.setWidth 8) (BitVec.ofNat 8 ceiling)
      (BitVec.ofNat 16 quota) s =
        accept .empty (s.setProfile target { rights := rights, ceiling := ceiling, quota := quota }) := by
    unfold opSetProfile
    rw [admitted_of_speaks hw, require_of _ _ _ _ rfl, writerNo?_ofNat, profile?_encoded rights hc hq]
    dsimp only
    rw [require_of _ _ _ _ h0, require_of _ _ _ _ hb]
  rw [exec_operation rfl, applyOp, hop]
  rfl

theorem State.retiringCount_eq (s : State) (w : WriterNo) :
    s.retiringCount w = (allSlots.filter (s.retiredFrom w)).length := by
  unfold State.retiringCount
  rw [State.ownedSlots_eq]
  refine congrArg List.length (filter_filter_of _ _ _ _ fun i => ?_)
  cases hs : s.slot i <;> simp [State.ownedBy, State.retiredFrom, hs]

/-- The result of an operation is no part of a dismissal. -/
theorem State.Dismisses.answered {s : State} {w : WriterNo} {a : Applied} (h : s.Dismisses a.2 w) :
    s.Dismisses (answered a) w := by
  obtain ⟨slot, queue, index, free, vacating, writer, others, port, rest⟩ := h
  refine ⟨slot, queue, index, free, vacating, writer, others, port, ?_⟩
  unfold Machine.answered
  generalize a.2 = t at *
  rw [rest]

/-- Settles O13: the operation is the dismissal of its target. -/
theorem dismissReleasesEveryOwnedRecord : Obligations.DismissReleasesEveryOwnedRecord := by
  intro p w target s hw hsame hb
  have hnum : (BitVec.ofNat 8 target.val).toNat = target.val := by rw [BitVec.toNat_ofNat]; omega
  have hright : w = 0 ∨ (BitVec.ofNat 8 target.val).toNat = w.val := by
    rw [hnum]
    exact hsame.imp id fun h => congrArg Fin.val h.symm
  have hop : opDismiss p w (BitVec.ofNat 8 target.val) s =
      accept (.dismissed (s.ownedSlots target).length (s.retiringCount target)) (s.dismissWriter target) := by
    unfold opDismiss
    rw [admitted_of_speaks hw, require_of _ _ _ _ hright, writerNo?_ofNat]
    dsimp only
    rw [require_of _ _ _ _ hb]
  refine ⟨_, exec_operation rfl s, ?_⟩
  rw [applyOp, hop, State.ownedSlots_eq, State.retiringCount_eq]
  exact ⟨State.Dismisses.answered (s.dismissWriter_spec target), rfl⟩

/-! ### RELEASE (R39, R60) -/

/-- Settles O21: the operation is the loss of owner of the record its tag names. -/
theorem releaseFollowsOrphanPolicy : Obligations.ReleaseFollowsOrphanPolicy := by
  intro p w tag i r s hw hn ho
  have hop : opRelease p w tag s = accept (.slotState i ((s.loseOwner i r).slot i).state) (s.loseOwner i r) := by
    unfold opRelease
    rw [admitted_of_speaks hw, require_of _ _ _ _ hn.1, onRecord_of_names hn, require_of _ _ _ _ ho]
  refine ⟨_, exec_operation rfl s, ?_⟩
  rw [applyOp, hop]
  by_cases hp : r.orphan = .retire
  · obtain ⟨hret, hrest⟩ := s.retireRecord_spec i r
    rw [State.loseOwner_retire s i r hp]
    refine ⟨fun _ => hret, fun hne => absurd hp hne, ?_⟩
    generalize s.retireRecord i r = t at *
    rw [hrest]
    rfl
  · obtain ⟨hbecomes, hrest⟩ := s.loseOwner_keep i r hp
    rw [ho] at hrest
    generalize s.loseOwner i r = t at *
    refine ⟨fun he => absurd he hp, fun _ => ⟨hbecomes, ?_, ?_, ?_, ?_⟩, ?_⟩
    all_goals
      rw [hrest]
      rfl

/-! ### The port break (R48, R160) -/

/-- The lowest-numbered writer bound to a port. -/
theorem State.lowestBound_eq {s : State} {p : PortId} {w : WriterNo} (hw : (s.writer w).binding = some p)
    (hlow : ∀ v, v < w → (s.writer v).binding ≠ some p) : s.lowestBound p = some w := by
  refine List.find?_eq_some_iff_append.mpr ⟨by simp [hw], ?_⟩
  obtain ⟨before, rest, hl⟩ := List.append_of_mem (List.mem_finRange w)
  refine ⟨before, rest, hl, fun v hv => ?_⟩
  have hrise : (before ++ w :: rest).Pairwise (· < ·) := hl ▸ List.pairwise_lt_finRange 8
  obtain ⟨-, -, hbelow⟩ := List.pairwise_append.mp hrise
  simpa using hlow v (hbelow v hv w (by simp))

section
variable {s : State} {p : PortId}

theorem State.breakDismissal_of_bound {w : WriterNo} (hs : (s.port p).service = .breaking)
    (hw : s.lowestBound p = some w) : s.breakDismissal p = s.dismissWriter w := by
  simp only [State.breakDismissal, hs, hw]

theorem State.breakDismissal_of_unbound (hw : s.lowestBound p = none) : s.breakDismissal p = s := by
  simp [State.breakDismissal, hw]

theorem State.breakDismissal_of_not_breaking (hs : (s.port p).service ≠ .breaking) : s.breakDismissal p = s := by
  unfold State.breakDismissal
  split
  next h _ => exact absurd h hs
  · rfl

theorem State.breakCompletion_of_bound {w : WriterNo} (hw : s.lowestBound p = some w) : s.breakCompletion p = s := by
  simp [State.breakCompletion, hw]

theorem State.breakCompletion_of_unbound (hs : (s.port p).service = .breaking) (hw : s.lowestBound p = none) :
    s.breakCompletion p = s.setPort p (s.port p).endBreak := by
  simp only [State.breakCompletion, hs, hw]

theorem State.breakCompletion_of_not_breaking (hs : (s.port p).service ≠ .breaking) : s.breakCompletion p = s := by
  unfold State.breakCompletion
  split
  next h _ => exact absurd h hs
  · rfl

end

theorem State.dismissWriter_result (s : State) (w : WriterNo) : (s.dismissWriter w).result = s.result := by
  have hlost : ((s.ownedSlots w).foldl State.loseOwnerAt s).result = s.result := by
    rw [(s.loseOwners_drops (s.ownedSlots w) (allSlots_nodup.filter _)).rest]
  unfold State.dismissWriter
  dsimp only
  split
  · rw [State.setWriter_result, State.closeCursorOf_eq]
    exact hlost
  · exact hlost

/-- Settles O50: the expiry, the dismissals and the completion of a break, each where a writer is bound to the port and
where none is. -/
theorem portBreakDismissesThenClears : Obligations.PortBreakDismissesThenClears := by
  intro p s
  refine ⟨fun hrun => ⟨fun hbound => ?_, fun hnone => ?_⟩, fun hstop => ?_, fun hs => ⟨fun w hw hlow => ?_,
    fun hnone => ?_⟩, fun hs => ?_⟩
  · have hlow : s.lowestBound p ≠ none := fun h => hbound.elim ((s.lowestBound_eq_none p).mp h)
    exact congrArg Host.Outcome.next ((if_neg hrun).trans (if_neg hlow))
  · exact congrArg Host.Outcome.next ((if_neg hrun).trans (if_pos ((s.lowestBound_eq_none p).mpr hnone)))
  · exact congrArg Host.Outcome.next (if_pos hstop)
  · have hlowest := State.lowestBound_eq hw hlow
    refine ⟨congrArg Host.Outcome.next (State.breakCompletion_of_bound hlowest), s.dismissWriter w,
      congrArg Host.Outcome.next (State.breakDismissal_of_bound hs hlowest), s.dismissWriter_spec w,
      s.dismissWriter_result w⟩
  · have hlowest := (s.lowestBound_eq_none p).mpr hnone
    exact ⟨congrArg Host.Outcome.next (State.breakDismissal_of_unbound hlowest),
      congrArg Host.Outcome.next (State.breakCompletion_of_unbound hs hlowest)⟩
  · exact ⟨congrArg Host.Outcome.next (State.breakDismissal_of_not_breaking hs),
      congrArg Host.Outcome.next (State.breakCompletion_of_not_breaking hs)⟩

end Sys2Proof.Machine

namespace Sys2Proof.Machine

/-! ### What the part takes when no command waits (notes/assumptions/3.md) -/

section
variable (s : State)

theorem State.some_mem_nextChoices (c : Instr) :
    some c ∈ s.nextChoices ↔ c ∈ s.dueEvents ∨ c ∈ s.readyEvents := by
  have htime : some c ∉ (if s.dueEvents = [] then [none] else [] : List (Option Instr)) := by split <;> simp
  simp [State.nextChoices, htime]

theorem State.none_mem_nextChoices : none ∈ s.nextChoices ↔ s.dueEvents = [] := by
  simp [State.nextChoices]

theorem State.nextChoices_ne_nil : s.nextChoices ≠ [] := by
  intro h
  by_cases hd : s.dueEvents = []
  · exact List.ne_nil_of_mem (s.none_mem_nextChoices.mpr hd) h
  · simp [State.nextChoices, hd] at h

/-- The choice is one of the choices. -/
theorem State.chosen_mem : s.chosen ∈ s.nextChoices := by
  have hlt : Config.choice s.choices % s.nextChoices.length < s.nextChoices.length :=
    Nat.mod_lt _ (List.length_pos_iff.mpr s.nextChoices_ne_nil)
  rw [State.chosen, List.getElem?_eq_getElem hlt, Option.join_some]
  exact List.getElem_mem hlt

end

/-- With no command waiting, the part takes one of its own events, or a unit of time passes. -/
theorem step_of_empty_queue {s : State} (h : s.pending = []) :
    (∃ c, (c ∈ s.dueEvents ∨ c ∈ s.readyEvents) ∧ step s = exec c s.counted) ∨
      (s.dueEvents = [] ∧ step s = .next s.counted.tick) := by
  have hmem := s.chosen_mem
  unfold step
  rw [h]
  cases hc : s.chosen with
  | none => exact .inr ⟨s.none_mem_nextChoices.mp (hc ▸ hmem), rfl⟩
  | some c => exact .inl ⟨c, (s.some_mem_nextChoices c).mp (hc ▸ hmem), rfl⟩

/-! ### A unit of time (R105, R176) -/

theorem State.tick_oneUnitPasses (s : State) : s.OneUnitPasses s.tick := by
  refine ⟨fun i => ?_, fun g => ?_, Timer.tick_oneLess _, Timer.tick_oneLess _, Transmission.tick_oneLess _, rfl, rfl,
    fun p => ?_, rfl⟩
  · rw [State.tick_slot]
    exact Slot.tick_oneLess _
  · rw [State.tick_groupEntry]
    exact ⟨rfl, Timer.tick_oneLess _⟩
  · rw [State.tick_port]
    exact Timer.tick_oneLess _

/-! ### The events that are due (R105) -/

theorem mem_ite_singleton {α : Type} (c a : α) (p : Prop) [Decidable p] :
    (c ∈ if p then [a] else []) ↔ c = a ∧ p := by
  split <;> simp [*]

/-- The events of a list of places that pass a test. -/
theorem mem_map_filter {α : Type} (c : Instr) (l : List α) (test : α → Bool) (event : α → Instr)
    (hl : ∀ a, a ∈ l) : c ∈ (l.filter test).map event ↔ ∃ a, c = event a ∧ test a = true := by
  simp only [List.mem_map, List.mem_filter, hl, true_and]
  exact exists_congr fun a => by rw [and_comm, @eq_comm _ c]

theorem mem_flatMap_everywhere {α : Type} (c : Instr) (l : List α) (events : α → List Instr) (hl : ∀ a, a ∈ l) :
    c ∈ l.flatMap events ↔ ∃ a, c ∈ events a := by
  simp [hl]

theorem mem_bothPorts (p : PortId) : p ∈ [PortId.a, PortId.b] := by
  cases p <;> simp

theorem State.mem_dueEvents (s : State) (c : Instr) :
    c ∈ s.dueEvents ↔
      (∃ i r, c = .freshnessExpiry i ∧ s.slot i = .holding r ∧ r.countdown = .running 0) ∨
      (∃ i r d, c = .holdTimerExpiry i ∧ s.slot i = .holding r ∧ r.holdTimer = .running 0 d) ∨
      (∃ g, c = .cycleTimerExpiry g ∧ (s.groupEntry g).timer = .running 0) ∨
      (c = (if s.safe.lineHigh then .safeRelease else .safeEntry) ∧ s.safe.stability = .running 0) ∨
      (∃ rate, c = .endOfTransmission ∧ s.link.transmission = .running 0 rate) ∨
      (c = .acknowledgementTimerExpiry ∧ s.link.ackTimer = .running 0) ∨
      (∃ p, c = .portBreak p ∧ (s.port p).breakInterval = .running 0) := by
  have hslots : c ∈ allSlots.flatMap s.dueAtSlot ↔
      (∃ i r, c = .freshnessExpiry i ∧ s.slot i = .holding r ∧ r.countdown = .running 0) ∨
        ∃ i r d, c = .holdTimerExpiry i ∧ s.slot i = .holding r ∧ r.holdTimer = .running 0 d := by
    rw [mem_flatMap_everywhere _ _ _ mem_allSlots, ← exists_or]
    exact exists_congr fun i => s.mem_dueAtSlot i c
  unfold State.dueEvents
  rw [List.mem_append, List.mem_append, List.mem_append, List.mem_append, List.mem_append, hslots,
    mem_map_filter _ _ _ _ mem_bothPorts, mem_map_filter _ _ _ _ mem_allGroups, mem_ite_singleton, mem_ite_singleton,
    mem_ite_singleton]
  simp only [Timer.due_iff, Transmission.due_iff, ← exists_and_left]
  -- The expiries of the break intervals stand first in the list and last in the statement.
  rw [or_assoc, or_assoc, or_assoc, or_assoc, or_assoc, or_comm]
  simp only [or_assoc]

/-! ### The events that may follow by themselves (R129, R153, R160) -/

theorem State.mem_readyAtPort (s : State) (p : PortId) (c : Instr) :
    c ∈ s.readyAtPort p ↔
      (∃ f w ops, c = .batchApplication p ∧ (s.port p).service = .serving f ∧ f.judgement = .ok w ops) ∨
      (∃ f, c = .frameCompletion p ∧ (s.port p).service = .serving f ∧ ∀ w ops, f.judgement ≠ .ok w ops) ∨
      (∃ w, c = .breakDismissal p ∧ (s.port p).service = .breaking ∧ (s.writer w).binding = some p) ∨
      (c = .breakCompletion p ∧ (s.port p).service = .breaking ∧ ∀ w, (s.writer w).binding ≠ some p) := by
  unfold State.readyAtPort
  cases hs : (s.port p).service with
  | ready => simp
  | serving f => cases hj : f.judgement <;> simp [hj]
  | breaking =>
    by_cases hb : (s.lowestBound p).isSome = true
    · have hbound := (s.lowestBound_isSome p).mp hb
      have hnot : ¬ ∀ w, (s.writer w).binding ≠ some p := fun h => hbound.elim h
      rw [if_pos hb]
      simp only [List.mem_singleton, reduceCtorEq, false_and, and_false, exists_false, false_or, true_and,
        exists_and_left, hbound, hnot, and_true, or_false]
    · have hnone := (s.lowestBound_eq_none p).mp (by simpa using hb)
      rw [if_neg hb]
      simp [hnone]

theorem State.mem_readyEvents (s : State) (c : Instr) :
    c ∈ s.readyEvents ↔
      (∃ p f w ops, c = .batchApplication p ∧ (s.port p).service = .serving f ∧ f.judgement = .ok w ops) ∨
      (∃ p f, c = .frameCompletion p ∧ (s.port p).service = .serving f ∧ ∀ w ops, f.judgement ≠ .ok w ops) ∨
      (∃ p w, c = .breakDismissal p ∧ (s.port p).service = .breaking ∧ (s.writer w).binding = some p) ∨
      (∃ p, c = .breakCompletion p ∧ (s.port p).service = .breaking ∧ ∀ w, (s.writer w).binding ≠ some p) ∨
      (c = .sendEvent ∧ s.link.state = .idle ∧ s.link.queue ≠ []) := by
  have hports : c ∈ s.readyAtPort .a ∨ c ∈ s.readyAtPort .b ↔ ∃ p, c ∈ s.readyAtPort p :=
    ⟨fun h => h.elim (fun h => ⟨_, h⟩) fun h => ⟨_, h⟩, fun ⟨p, h⟩ => by cases p <;> simp [h]⟩
  rw [State.readyEvents, List.mem_append, List.mem_append, hports, mem_ite_singleton]
  simp only [State.mem_readyAtPort, exists_or, or_assoc]

/-- Settles O2: the choices are the due and the ready events and, while nothing is due, the passing of time. -/
theorem emptyQueueTakesOwnEventOrTime : Obligations.EmptyQueueTakesOwnEventOrTime :=
  fun s => ⟨step_of_empty_queue, s.tick_oneUnitPasses, s.mem_dueEvents, s.mem_readyEvents⟩

end Sys2Proof.Machine

namespace Sys2Proof.Machine

/-! ### CLAIM and the record its tag names (R50, R52, R53, R55) -/

/-- What a CLAIM does with the record its tag names, once its own operands have passed. -/
def claimRecord (w : WriterNo) (prec : Nat) (s : State) (i : SlotNo) (r : Record) : Applied :=
  match r.owner with
  | none =>
    require ((s.writer w).ownedCount ≠ (s.profile w).quota) .quotaFull s <|
    accept (.claimed i .new none 0) (s.claimUnowned i r w prec)
  | some old =>
    if old = w then accept (.claimed i .reclaim (some w) r.precedence) (s.reclaim i r prec)
    else if prec = r.precedence then ({ status := .claimHeld, data := .holder old r.precedence }, s)
    else if prec < r.precedence then ({ status := .outranked, data := .holder old r.precedence }, s)
    else
      require ((s.writer w).ownedCount ≠ (s.profile w).quota) .quotaFull s <|
      accept (.claimed i .takeover (some old) r.precedence) (s.takeOver i r old w prec)

theorem opClaim_eq (p : PortId) (w : WriterNo) (tag : Word16) (precedence : Byte) (s : State) :
    opClaim p w tag precedence s =
      (admitted p w s <|
        require ((s.profile w).ceiling ≠ 0) .noRight s <|
        require (1 ≤ precedence.toNat ∧ precedence.toNat ≤ 15 ∧ tagInRange tag) .badOperand s <|
        require (precedence.toNat ≤ (s.profile w).ceiling) .aboveCeiling s <|
        onRecord tag s (claimRecord w precedence.toNat s)) :=
  rfl

section
variable {s : State} {p : PortId} {w old : WriterNo} {tag : Word16} {precedence : Byte} {prec : Nat} {i : SlotNo}
  {r : Record}

/-- A CLAIM whose operands are in range and whose tag names a record comes to that record. -/
theorem opClaim_of_names (hw : s.speaks p w) (hn : s.names tag i r) (hlow : 1 ≤ precedence.toNat)
    (hhigh : precedence.toNat ≤ 15) (hceiling : precedence.toNat ≤ (s.profile w).ceiling) :
    opClaim p w tag precedence s = claimRecord w precedence.toNat s i r := by
  rw [opClaim_eq, admitted_of_speaks hw, require_of _ _ _ _ (by omega), require_of _ _ _ _ ⟨hlow, hhigh, hn.1⟩,
    require_of _ _ _ _ hceiling, onRecord_of_names hn]

theorem claimRecord_unowned (ho : r.owner = none) :
    claimRecord w prec s i r =
      require ((s.writer w).ownedCount ≠ (s.profile w).quota) .quotaFull s
        (accept (.claimed i .new none 0) (s.claimUnowned i r w prec)) := by
  rw [claimRecord, ho]

theorem claimRecord_own (ho : r.owner = some w) :
    claimRecord w prec s i r = accept (.claimed i .reclaim (some w) r.precedence) (s.reclaim i r prec) := by
  rw [claimRecord, ho]
  exact if_pos rfl

theorem claimRecord_held (ho : r.owner = some old) (hne : old ≠ w) (hp : prec = r.precedence) :
    claimRecord w prec s i r = ({ status := .claimHeld, data := .holder old r.precedence }, s) := by
  rw [claimRecord, ho]
  exact (if_neg hne).trans (if_pos hp)

theorem claimRecord_outranked (ho : r.owner = some old) (hne : old ≠ w) (hp : prec < r.precedence) :
    claimRecord w prec s i r = ({ status := .outranked, data := .holder old r.precedence }, s) := by
  rw [claimRecord, ho]
  exact (if_neg hne).trans ((if_neg hp.ne).trans (if_pos hp))

theorem claimRecord_above (ho : r.owner = some old) (hne : old ≠ w) (hp : r.precedence < prec) :
    claimRecord w prec s i r =
      require ((s.writer w).ownedCount ≠ (s.profile w).quota) .quotaFull s
        (accept (.claimed i .takeover (some old) r.precedence) (s.takeOver i r old w prec)) := by
  rw [claimRecord, ho]
  exact (if_neg hne).trans ((if_neg hp.ne').trans (if_neg hp.not_gt))

end

/-! ### CLAIM answers by the first check that fails (R50) -/

/-- What a CLAIM answers: a status, the record's owner and precedence where that is CLAIM_HELD or OUTRANKED, and no
data for any other refusal. -/
def ClaimAnswers (record : Option Record) (a : Applied) (s : State) (status : Status) : Prop :=
  a.1.status = status ∧
    (status = .claimHeld ∨ status = .outranked → ∀ r v, record = some r → r.owner = some v →
      a = ({ status := status, data := .holder v r.precedence }, s)) ∧
    (status ≠ .ok → status ≠ .claimHeld → status ≠ .outranked → a = refuse status s)

section
variable {record : Option Record} {a : Applied} {s : State} {status after : Status}

/-- An answer that names no holder is an answer as other operations give it. -/
theorem ClaimAnswers.of_answers (h : Answers a s status) (hheld : status ≠ .claimHeld)
    (hout : status ≠ .outranked) : ClaimAnswers record a s status :=
  ⟨h.1, fun hs => absurd hs (not_or.mpr ⟨hheld, hout⟩), fun hok _ _ => h.2 hok⟩

theorem ClaimAnswers.holder {r : Record} {v : WriterNo} (hv : r.owner = some v)
    (hs : status = .claimHeld ∨ status = .outranked) :
    ClaimAnswers (some r) ({ status := status, data := .holder v r.precedence }, s) s status := by
  refine ⟨rfl, fun _ r' v' hr' hv' => ?_, fun _ hheld hout => absurd hs (not_or.mpr ⟨hheld, hout⟩)⟩
  cases hr'
  cases hv.symm.trans hv'
  rfl

theorem ClaimAnswers.require {c d : Prop} [Decidable c] [Decidable d] {next : Applied} (hcd : c ↔ ¬ d)
    (hheld : status ≠ .claimHeld) (hout : status ≠ .outranked) (h : c → ClaimAnswers record next s after) :
    ClaimAnswers record (require c status s next) s (if d then status else after) := by
  by_cases hd : d
  · rw [if_pos hd, require_not _ _ _ _ fun hc => hcd.mp hc hd]
    exact .of_answers .refuse hheld hout
  · rw [if_neg hd, require_of _ _ _ _ (hcd.mpr hd)]
    exact h (hcd.mpr hd)

end

/-- Where the index agrees with the table, a tag in range is unknown or names a record. -/
theorem State.unknown_or_names {s : State} {tag : Word16} (hi : s.indexLaw) (ht : tagInRange tag) :
    s.tagIndex.lookup tag = none ∨ ∃ i r, s.names tag i r := by
  cases hl : s.tagIndex.lookup tag with
  | none => exact .inl rfl
  | some i =>
    obtain ⟨r, hr, -⟩ := (hi.2 tag i).mp hl
    exact .inr ⟨i, r, ht, hl, hr⟩

theorem State.names.recordOf {s : State} {tag : Word16} {i : SlotNo} {r : Record} (h : s.names tag i r) :
    s.recordOf tag = some r := by
  obtain ⟨-, hl, hs⟩ := h
  simp [State.recordOf, hl, hs]

theorem State.names.known {s : State} {tag : Word16} {i : SlotNo} {r : Record} (h : s.names tag i r) :
    s.tagIndex.lookup tag ≠ none := by
  obtain ⟨-, hl, -⟩ := h
  simp [hl]

/-- The operands of a CLAIM in range (R50, step 2). -/
theorem claimOperands_iff (tag : Word16) (precedence : Byte) :
    1 ≤ precedence.toNat ∧ precedence.toNat ≤ 15 ∧ tagInRange tag ↔
      ¬ (precedence = 0 ∨ 15 < precedence.toNat ∨ tag = 0x0000 ∨ tag = 0xFFFF) := by
  have h0 : precedence = 0 ↔ precedence.toNat = 0 := by bv_omega
  rw [tagInRange_iff, h0]
  grind

/-- The last checks of a CLAIM, on the record its tag names: whose it is, by what precedence, and the quota. -/
theorem claimRecord_answers (s : State) (w : WriterNo) (prec : Nat) (i : SlotNo) (r : Record) :
    ClaimAnswers (some r) (claimRecord w prec s i r) s
      (if r.owner = some w then .ok
       else if r.owner.isSome ∧ prec = r.precedence then .claimHeld
       else if r.owner.isSome ∧ prec < r.precedence then .outranked
       else if (s.writer w).ownedCount = (s.profile w).quota then .quotaFull
       else .ok) := by
  have accepted : ∀ d t, ClaimAnswers (some r) (accept d t) s .ok := fun _ _ =>
    .of_answers .accept (by decide) (by decide)
  have byQuota : ∀ d t, ClaimAnswers (some r)
      (require ((s.writer w).ownedCount ≠ (s.profile w).quota) .quotaFull s (accept d t)) s
      (if (s.writer w).ownedCount = (s.profile w).quota then .quotaFull else .ok) := fun d t =>
    .require Iff.rfl (by decide) (by decide) fun _ => accepted d t
  cases ho : r.owner with
  | none =>
    rw [claimRecord_unowned ho]
    simpa using byQuota _ _
  | some old =>
    simp only [Option.some.injEq, Option.isSome_some, true_and]
    by_cases hw : old = w
    · rw [if_pos hw, claimRecord_own (hw ▸ ho)]
      exact accepted _ _
    · rw [if_neg hw]
      rcases Nat.lt_trichotomy prec r.precedence with hlt | heq | hgt
      · rw [if_neg hlt.ne, if_pos hlt, claimRecord_outranked ho hw hlt]
        exact .holder ho (.inr rfl)
      · rw [if_pos heq, claimRecord_held ho hw heq]
        exact .holder ho (.inl rfl)
      · rw [if_neg hgt.ne', if_neg hgt.not_gt, claimRecord_above ho hw hgt]
        exact byQuota _ _

/-- Settles O18: the checks on the claim's own operands, then those on the record its tag names. -/
theorem claimChecksInOrder : Obligations.ClaimChecksInOrder := by
  intro p w tag precedence s hw hi record status
  have hanswers : ClaimAnswers record (opClaim p w tag precedence s) s status := by
    rw [opClaim_eq, admitted_of_speaks hw]
    refine .require Iff.rfl (by decide) (by decide) fun _ =>
      .require (claimOperands_iff tag precedence) (by decide) (by decide) fun ⟨_, _, htag⟩ =>
      .require not_lt.symm (by decide) (by decide) fun _ => ?_
    rcases State.unknown_or_names hi htag with hnone | ⟨i, r, hn⟩
    · rw [if_pos hnone, onRecord_none hnone]
      exact .of_answers .refuse (by decide) (by decide)
    · rw [if_neg hn.known, onRecord_of_names hn, show record = some r from hn.recordOf]
      simpa using claimRecord_answers s w precedence.toNat i r
  obtain ⟨hstatus, hholder, hrefused⟩ := hanswers
  refine ⟨_, exec_operation rfl s, ?_⟩
  exact ⟨congrArg some hstatus, fun hs r v hr hv => congrArg answered (hholder hs r v hr hv),
    fun hok hheld hout => congrArg answered (hrefused hok hheld hout)⟩

/-! ### A claim of an unowned record, and a re-claim (R52, R53) -/

/-- A claim changes neither live value nor state, so it writes the slot and nothing of the queue. -/
theorem State.claimUnowned_eq (s : State) (i : SlotNo) (r : Record) (w : WriterNo) (prec : Nat) :
    s.claimUnowned i r w prec =
      (s.raiseOwned w).setSlot i
        (.holding { r with owner := some w, precedence := prec, countdown := r.claimCountdown }) :=
  State.changeRecord_quiet _ i r _ rfl rfl

theorem State.reclaim_eq (s : State) (i : SlotNo) (r : Record) (prec : Nat) :
    s.reclaim i r prec = s.setSlot i (.holding { r with precedence := prec }) :=
  s.changeRecord_quiet i r _ rfl rfl

theorem State.setSlot_slots (s : State) (i : SlotNo) (x : Slot) :
    (s.setSlot i x).slot i = x ∧ ∀ j, j ≠ i → (s.setSlot i x).slot j = s.slot j :=
  ⟨(s.slot_setSlot i i x).trans (if_pos rfl), fun j hj => (s.slot_setSlot i j x).trans (if_neg hj.symm)⟩

/-- Settles O19: the record found is unowned or the claimant's own. -/
theorem claimTakesOrKeepsOwnership : Obligations.ClaimTakesOrKeepsOwnership := by
  intro p w tag precedence i r s hw hn hlow hhigh hceiling
  have hop := opClaim_of_names hw hn hlow hhigh hceiling
  refine ⟨fun ho hquota => ?_, fun ho => ?_⟩
  · rw [claimRecord_unowned ho, require_of _ _ _ _ hquota, State.claimUnowned_eq] at hop
    refine ⟨_, exec_operation rfl s, ?_⟩
    rw [applyOp, hop]
    obtain ⟨hslot, hothers⟩ := (s.raiseOwned w).setSlot_slots i
      (.holding { r with owner := some w, precedence := precedence.toNat, countdown := r.claimCountdown })
    exact ⟨hslot, hothers, rfl⟩
  · rw [claimRecord_own ho, State.reclaim_eq] at hop
    refine ⟨_, exec_operation rfl s, ?_⟩
    rw [applyOp, hop]
    obtain ⟨hslot, hothers⟩ := s.setSlot_slots i (.holding { r with precedence := precedence.toNat })
    exact ⟨hslot, hothers, rfl⟩

/-! ### Takeover (R55, R56, R57) -/

/-- The part with the record in its new owner's hands and both owned counts moved, before the old owner is told. -/
def State.handedOver (s : State) (i : SlotNo) (r : Record) (old w : WriterNo) (prec : Nat) : State :=
  ((s.lowerOwned old).raiseOwned w).setSlot i (.holding (r.takenOver w prec))

/-- A takeover changes neither live value nor state, so it writes the slot and nothing of the queue. -/
theorem State.takeOver_eq (s : State) (i : SlotNo) (r : Record) (old w : WriterNo) (prec : Nat) :
    s.takeOver i r old w prec = (s.handedOver i r old w prec).notifyWriter old (.claimLost r.tag w prec) := by
  unfold State.takeOver State.handedOver
  rw [State.changeRecord_quiet _ i r (r.takenOver w prec) rfl rfl]

theorem State.handedOver_writer (s : State) (i : SlotNo) (r : Record) {old w : WriterNo} (hne : old ≠ w) (prec : Nat)
    (v : WriterNo) :
    (s.handedOver i r old w prec).writer v =
      if w = v then { s.writer w with ownedCount := (s.writer w).ownedCount + 1 }
      else if old = v then { s.writer old with ownedCount := (s.writer old).ownedCount - 1 }
      else s.writer v := by
  simp [State.handedOver, State.raiseOwned, State.lowerOwned, hne]

/-- A notice goes where the writer's binding says, so an update that leaves that binding and the ports does not
matter. -/
theorem State.Notifies.of_same {s u t : State} {w : WriterNo} {n : Notice} (h : u.Notifies t w n)
    (hb : (u.writer w).binding = (s.writer w).binding) (hp : ∀ p, u.port p = s.port p) : s.Notifies t w n :=
  fun p => by rw [← hb, ← hp p]; exact h p

/-- The notice reaches the old owner's port, and changes nothing else of the part handed over. -/
theorem State.takeOver_spec (s : State) (i : SlotNo) (r : Record) {old w : WriterNo} (hne : old ≠ w) (prec : Nat) :
    s.Notifies (s.takeOver i r old w prec) old (.claimLost r.tag w prec) ∧
      s.takeOver i r old w prec = { s.handedOver i r old w prec with
        portA := (s.takeOver i r old w prec).portA, portB := (s.takeOver i r old w prec).portB } := by
  rw [State.takeOver_eq]
  obtain ⟨hnotice, hrest⟩ := (s.handedOver i r old w prec).notifyWriter_spec old (.claimLost r.tag w prec)
  have hbinding : ((s.handedOver i r old w prec).writer old).binding = (s.writer old).binding := by
    rw [s.handedOver_writer i r hne, if_neg hne.symm, if_pos rfl]
  exact ⟨hnotice.of_same hbinding fun _ => rfl, hrest⟩

/-- Settles O20: the claimant outranks the owner, so the quota alone can refuse the takeover. -/
theorem takeoverMovesTheRecord : Obligations.TakeoverMovesTheRecord := by
  intro p w old tag precedence i r s hw hn ho hne hhigh hceiling habove
  have hop := opClaim_of_names hw hn (Nat.one_le_of_lt habove) hhigh hceiling
  rw [claimRecord_above ho hne habove] at hop
  refine ⟨fun hquota => ?_, fun hquota => ?_⟩
  · rw [require_not _ _ _ _ (not_not_intro hquota)] at hop
    rw [exec_operation rfl, applyOp, hop]
    rfl
  · rw [require_of _ _ _ _ hquota] at hop
    refine ⟨_, exec_operation rfl s, ?_⟩
    rw [applyOp, hop]
    obtain ⟨hnotice, hrest⟩ := s.takeOver_spec i r hne precedence.toNat
    obtain ⟨hslot, hothers⟩ :=
      ((s.lowerOwned old).raiseOwned w).setSlot_slots i (.holding (r.takenOver w precedence.toNat))
    have hwriters := s.handedOver_writer i r hne precedence.toNat
    generalize s.takeOver i r old w precedence.toNat = t at *
    have writer : ∀ v, t.writer v = (s.handedOver i r old w precedence.toNat).writer v := fun v => by rw [hrest]; rfl
    refine ⟨?_, ?_, ?_, ?_, fun v hold hnew => ?_, hnotice, ?_⟩
    · rw [hrest]; exact hslot
    · rw [hrest]; exact hothers
    · exact (writer old).trans ((hwriters old).trans ((if_neg hne.symm).trans (if_pos rfl)))
    · exact (writer w).trans ((hwriters w).trans (if_pos rfl))
    · exact (writer v).trans ((hwriters v).trans ((if_neg hnew.symm).trans (if_neg hold.symm)))
    · rw [hrest]; rfl

end Sys2Proof.Machine

namespace Sys2Proof.Machine

/-! ### What the operations on one record share (R68, R78) -/

/-- An operation command comes to what its operation answers. -/
theorem exec_of_applyOp {c : Instr} {p : PortId} {w : WriterNo} {op : Op} {s : State} {a : Applied}
    (hc : operationOf c = some (p, w, op)) (ha : applyOp p w op s = a) : exec c s = .next (answered a) := by
  rw [exec_operation hc, ha]

section
variable {s : State} {p : PortId} {w : WriterNo} {tag : Word16} {i : SlotNo} {r : Record}

/-- With the right, and a tag that names a record of the writer's own, an operation goes on to that record. -/
theorem onOwned_of_names (hw : s.speaks p w) (hright : (s.profile w).rights.getLsbD 2 = true) (hn : s.names tag i r)
    (ho : r.owner = some w) (next : SlotNo → Record → Applied) : onOwned p w tag s next = next i r := by
  have hholds : (s.profile w).holds .stage = true := hright
  unfold onOwned
  rw [admitted_of_speaks hw, require_of _ _ _ _ hholds, require_of _ _ _ _ hn.1, onRecord_of_names hn,
    require_of _ _ _ _ ho]

variable {operands : Prop} [Decidable operands]

theorem onShaped_noRight (hw : s.speaks p w) (hright : (s.profile w).rights.getLsbD 3 = false)
    (next : SlotNo → Record → Applied) : onShaped p w tag operands s next = refuse .noRight s := by
  unfold onShaped
  rw [admitted_of_speaks hw, require_not _ _ _ _ fun h => (Profile.holds_iff _ .shape).mp h hright]

/-- With the right and the operands in range, the lookup and the owner decide. -/
theorem onShaped_of_right (hw : s.speaks p w) (hright : (s.profile w).rights.getLsbD 3 = true)
    (next : SlotNo → Record → Applied) :
    onShaped p w tag operands s next =
      require (tagInRange tag ∧ operands) .badOperand s
        (onRecord tag s fun i r => require (r.owner = none ∨ r.owner = some w) .notOwner s (next i r)) := by
  have hholds : (s.profile w).holds .shape = true := hright
  unfold onShaped
  rw [admitted_of_speaks hw, require_of _ _ _ _ hholds]

theorem onShaped_of_names (hw : s.speaks p w) (hright : (s.profile w).rights.getLsbD 3 = true)
    (hn : s.names tag i r) (hoperands : operands) (ho : r.owner = none ∨ r.owner = some w)
    (next : SlotNo → Record → Applied) : onShaped p w tag operands s next = next i r := by
  rw [onShaped_of_right hw hright, require_of _ _ _ _ ⟨hn.1, hoperands⟩, onRecord_of_names hn,
    require_of _ _ _ _ ho]

end

/-! ### An accepted operation that changes one record (R11, R12) -/

section
variable {c : Instr} {p : PortId} {w : WriterNo} {op : Op} {s : State} {d : Data} {i : SlotNo} {old new : Record}

/-- It changes that record, the queue, and its result. -/
theorem exec_changeRecord (hc : operationOf c = some (p, w, op))
    (hop : applyOp p w op s = accept d (s.changeRecord i old new)) (he : old.SameEntry new) :
    ∃ t, exec c s = .next t ∧ s.OneRecordBecomes t i old new ∧
      t = { s with
        table := t.table, link := { s.link with queue := t.link.queue },
        result := some { status := .ok, data := d } } := by
  obtain ⟨hbecomes, hrest⟩ := s.changeRecord_spec i old new he.sequence he.publish he.tag
  refine ⟨_, exec_of_applyOp hc hop, hbecomes, ?_⟩
  unfold answered accept
  generalize s.changeRecord i old new = t at *
  rw [hrest]

/-- Where live value and state stay, it changes that record and its result alone. -/
theorem exec_changeRecord_quiet (hc : operationOf c = some (p, w, op))
    (hop : applyOp p w op s = accept d (s.changeRecord i old new)) (hl : old.live = new.live)
    (hst : old.state = new.state) :
    ∃ t, exec c s = .next t ∧ t.slot i = .holding new ∧ (∀ j, j ≠ i → t.slot j = s.slot j) ∧
      t = { s with table := t.table, result := some { status := .ok, data := d } } := by
  rw [s.changeRecord_quiet i old new hl hst] at hop
  obtain ⟨hslot, hothers⟩ := s.setSlot_slots i (.holding new)
  exact ⟨_, exec_of_applyOp hc hop, hslot, hothers, rfl⟩

end

/-! ### The refresh effect (R67) -/

section
variable {r : Record}

theorem countdownFor_of_ne_zero {code : Nat} (h : code ≠ 0) : countdownFor code = .running (ms (10 * code)) :=
  if_neg h

theorem Record.refresh_of_live (h : r.state = .live ∧ r.freshnessCode ≠ 0) :
    r.refresh = { r with countdown := .running (ms (10 * r.freshnessCode)) } := by
  unfold Record.refresh
  rw [if_pos h, countdownFor_of_ne_zero h.2]

/-- A record held on expiry is not LIVE. -/
theorem Record.not_live_of_held (h : r.state = .held ∧ r.holdCause = some .expiry) :
    ¬ (r.state = .live ∧ r.freshnessCode ≠ 0) := by
  simp [h.1]

theorem Record.refresh_of_held (h : r.state = .held ∧ r.holdCause = some .expiry) :
    r.refresh = { r with refreshed := some true } :=
  (if_neg (Record.not_live_of_held h)).trans (if_pos h)

theorem Record.refresh_of_neither (hl : ¬ (r.state = .live ∧ r.freshnessCode ≠ 0))
    (hh : ¬ (r.state = .held ∧ r.holdCause = some .expiry)) : r.refresh = r :=
  (if_neg hl).trans (if_neg hh)

theorem Record.refresh_eq (r : Record) :
    r.refresh = { r with
      countdown :=
        if r.state = .live ∧ r.freshnessCode ≠ 0 then .running (ms (10 * r.freshnessCode)) else r.countdown
      refreshed := if r.state = .held ∧ r.holdCause = some .expiry then some true else r.refreshed } := by
  by_cases hh : r.state = .held ∧ r.holdCause = some .expiry
  · rw [Record.refresh_of_held hh, if_pos hh, if_neg (Record.not_live_of_held hh)]
  · by_cases hl : r.state = .live ∧ r.freshnessCode ≠ 0
    · rw [Record.refresh_of_live hl, if_pos hl, if_neg hh]
    · rw [Record.refresh_of_neither hl hh, if_neg hl, if_neg hh]

/-- A refresh moves neither live value nor state. -/
theorem Record.refresh_live_state (r : Record) : r.live = r.refresh.live ∧ r.state = r.refresh.state := by
  rw [Record.refresh_eq]
  exact ⟨rfl, rfl⟩

end

/-! ### STAGE and TOUCH (R69, R71, R74) -/

/-- Where the record clamps or the operand is within the limits, STAGE has an entry to place. -/
theorem Record.stagedFor_eq {r : Record} {v : Value}
    (h : r.clamp = true ∨ ¬ v.toInt < r.lower.toInt ∧ ¬ r.upper.toInt < v.toInt) :
    r.stagedFor v =
      some
        { value := if v.toInt < r.lower.toInt then r.lower else if r.upper.toInt < v.toInt then r.upper else v
          clamped := decide (v.toInt < r.lower.toInt ∨ r.upper.toInt < v.toInt) } := by
  unfold Record.stagedFor
  by_cases hin : within r.lower r.upper v
  · obtain ⟨hlow, hhigh⟩ := hin
    simp [hlow.not_gt, hhigh.not_gt, hlow, hhigh]
  · have hout : v.toInt < r.lower.toInt ∨ r.upper.toInt < v.toInt := by simp only [within] at hin; omega
    have hclamp : r.clamp = true := h.resolve_right fun ⟨hlow, hhigh⟩ => hout.elim hlow hhigh
    rw [if_neg hin, if_pos hclamp, decide_eq_true hout]
    by_cases hbelow : v.toInt < r.lower.toInt
    · rw [if_pos hbelow, if_pos hbelow]
    · rw [if_neg hbelow, if_neg hbelow, if_pos (hout.resolve_left hbelow)]

/-- Settles O22: the entry placed is that of `Record.stagedFor_eq`, on the record refreshed. -/
theorem stagePlacesValueAndRefreshes : Obligations.StagePlacesValueAndRefreshes := by
  intro p w tag value i r s hw hright hn ho below above hclamp placed clamped
  have hop : applyOp p w (.stage tag value) s = accept (.staged i placed clamped)
      (s.changeRecord i r { r.refresh with staged := some { value := placed, clamped := clamped } }) := by
    rw [applyOp, opStage, onOwned_of_names hw hright hn ho, Record.stagedFor_eq hclamp]
  obtain ⟨hlive, hstate⟩ := r.refresh_live_state
  obtain ⟨t, hexec, hslot, hframe⟩ := exec_changeRecord_quiet (c := .stage p w tag value) rfl hop hlive hstate
  rw [Record.refresh_eq] at hslot
  exact ⟨t, hexec, hslot, hframe⟩

/-- Settles O23: the effect reported names the branch that the refresh takes. -/
theorem touchRefreshesAndReportsIt : Obligations.TouchRefreshesAndReportsIt := by
  intro p w tag i r s hw hright hn ho
  have hop : applyOp p w (.touch tag) s = accept (.touched i r.touchEffect) (s.changeRecord i r r.refresh) := by
    rw [applyOp, opTouch, onOwned_of_names hw hright hn ho]
  obtain ⟨hlive, hstate⟩ := r.refresh_live_state
  obtain ⟨t, hexec, hslot, hframe⟩ := exec_changeRecord_quiet (c := .touch p w tag) rfl hop hlive hstate
  refine ⟨t, r.touchEffect, hexec, fun hl => ⟨if_pos hl, ?_⟩, fun hh => ⟨?_, ?_⟩, fun hl hh => ⟨?_, ?_⟩, hframe⟩
  · rw [hslot, Record.refresh_of_live hl]
  · exact (if_neg (Record.not_live_of_held hh)).trans (if_pos hh)
  · rw [hslot, Record.refresh_of_held hh]
  · exact (if_neg hl).trans (if_neg hh)
  · rw [hslot, Record.refresh_of_neither hl hh]

/-! ### UNLATCH (R76) -/

/-- Settles O24: the level of SAFE decides what the LATCHED record becomes. -/
theorem unlatchEndsTheLatch : Obligations.UnlatchEndsTheLatch := by
  intro p w tag i r s hw hright hn ho hlatched
  have hop : applyOp p w (.unlatch tag) s =
      accept (.slotState i (r.unlatched s.safeActive).state.slotState)
        (s.changeRecord i r (r.unlatched s.safeActive)) := by
    rw [applyOp, opUnlatch, onOwned_of_names hw hright hn ho, require_of _ _ _ _ hlatched]
  have hspec := exec_changeRecord (c := .unlatch p w tag) rfl hop (r.sameEntry_unlatched _)
  unfold State.safeActive at hspec
  cases hlevel : s.safe.level with
  | released => rw [hlevel] at hspec; exact hspec
  | active => rw [hlevel] at hspec; exact hspec

/-! ### SET_LIMITS (R80, R81) -/

theorem outside_eq (lower upper : Value) :
    outside lower upper = fun v => decide (v.toInt < lower.toInt ∨ upper.toInt < v.toInt) := by
  funext v
  simp only [outside, not_and_or, not_le]

/-- Settles O25: the shared steps of the shape operations refuse in order, then the three flags decide. -/
theorem setLimitsKeepsValuesInside : Obligations.SetLimitsKeepsValuesInside := by
  intro p w tag lower upper s hw _ beyond
  have hc : operationOf (.setLimits p w tag lower upper) = some (p, w, .setLimits tag lower upper) := rfl
  refine ⟨fun hright => exec_of_applyOp hc (onShaped_noRight hw hright _), fun hright => ?_⟩
  have hsteps := onShaped_of_right (tag := tag) (operands := lower.toInt ≤ upper.toInt) hw hright
  refine ⟨fun hbad => ?_, fun h0 hF hlu => ⟨fun hl => ?_, fun i r hn => ⟨fun hne hother => ?_, fun ho => ?_⟩⟩⟩
  · have hrange : ¬ (tagInRange tag ∧ lower.toInt ≤ upper.toInt) := by
      rw [tagInRange_iff, ← not_lt]
      tauto
    exact exec_of_applyOp hc ((hsteps _).trans (require_not _ _ _ _ hrange))
  · exact exec_of_applyOp hc <| (hsteps _).trans <|
      (require_of _ _ _ _ ⟨⟨h0, hF⟩, hlu⟩).trans (onRecord_none hl _)
  · exact exec_of_applyOp hc <| (hsteps _).trans <| (require_of _ _ _ _ ⟨hn.1, hlu⟩).trans <|
      (onRecord_of_names hn _).trans (require_not _ _ _ _ (not_or.mpr ⟨hne, hother⟩))
  · intro f l g
    have hop : applyOp p w (.setLimits tag lower upper) s =
        if f || l || g then ({ status := .limitConflict, data := .outside f l g }, s)
        else accept (.slot i) (s.changeRecord i r { r with lower := lower, upper := upper }) := by
      rw [applyOp, opSetLimits, onShaped_of_names hw hright hn hlu ho, outside_eq]
    refine ⟨fun hconflict => ?_, fun hf hl hg => ?_⟩
    · rw [if_pos (by simpa [or_assoc] using hconflict)] at hop
      exact exec_of_applyOp hc hop
    · rw [if_neg (by simp [hf, hl, hg])] at hop
      exact exec_changeRecord_quiet hc hop rfl rfl

/-! ### SET_FALLBACK (R82) -/

theorem Record.withFallback_eq (r : Record) (v : Value) :
    r.withFallback v =
      { r with fallback := v, live := if r.state = .held ∨ r.state = .latched then some v else r.live } := by
  unfold Record.withFallback
  split <;> rfl

theorem Record.live_ne_withFallback_iff (r : Record) (v : Value) :
    r.live ≠ (r.withFallback v).live ↔ (r.state = .held ∨ r.state = .latched) ∧ r.live ≠ some v := by
  rw [Record.withFallback_eq]
  by_cases hf : r.state = .held ∨ r.state = .latched <;> simp [hf]

/-- Settles O26: the record takes the fallback, and the live value with it where the state says so. -/
theorem setFallbackMovesHeldValue : Obligations.SetFallbackMovesHeldValue := by
  intro p w tag value i r s hw hright hn ho hlow hhigh follows
  have hop : applyOp p w (.setFallback tag value) s =
      accept (.fallbackSet i (decide (follows ∧ r.live ≠ some value)))
        (s.changeRecord i r (r.withFallback value)) := by
    rw [applyOp, opSetFallback, onShaped_of_names hw hright hn trivial ho, require_of _ _ _ _ ⟨hlow, hhigh⟩,
      decide_eq_decide.mpr (r.live_ne_withFallback_iff value)]
  have hspec := exec_changeRecord (c := .setFallback p w tag value) rfl hop (r.sameEntry_withFallback value)
  rwa [Record.withFallback_eq] at hspec

/-! ### SET_SUPERVISION and SET_GROUP (R84, R86) -/

theorem supervision?_encoded {freshness : Nat} (hf : freshness ≤ 4095) (policy : HoldPolicy) (period : Fin 4)
    (orphan : OrphanPolicy) :
    supervision? (BitVec.ofNat 16 freshness) policy.code (BitVec.ofNat 8 period.val) orphan.code =
      some { freshnessCode := freshness, holdPolicy := policy, holdPeriod := period, orphan := orphan } := by
  simp only [supervision?, freshness?_ofNat hf, holdPolicy?_code, holdPeriod?_ofNat, orphanPolicy?_code]

/-- Settles O27: operands read back as they were coded, written into the record. -/
theorem settingsAreReplaced : Obligations.SettingsAreReplaced := by
  intro p w tag i r s hw hright hn ho
  refine ⟨fun freshness policy period orphan hf => ?_, fun g => ?_⟩
  · have hop : applyOp p w
        (.setSupervision tag (BitVec.ofNat 16 freshness) policy.code (BitVec.ofNat 8 period.val) orphan.code) s =
          accept (.slot i) (s.changeRecord i r (r.supervised
            { freshnessCode := freshness, holdPolicy := policy, holdPeriod := period, orphan := orphan })) := by
      rw [applyOp, opSetSupervision, supervision?_encoded hf]
      exact onShaped_of_names hw hright hn trivial ho _
    exact exec_changeRecord_quiet rfl hop rfl rfl
  · have hop : applyOp p w (.setGroup tag (BitVec.ofNat 8 (g.val + 1))) s =
        accept (.regrouped i r.group) (s.changeRecord i r { r with group := g }) := by
      rw [applyOp, opSetGroup, groupNo?_ofNat]
      exact onShaped_of_names hw hright hn trivial ho _
    exact exec_changeRecord_quiet rfl hop rfl rfl

end Sys2Proof.Machine

namespace Sys2Proof.Machine

/-! ### What the laws of SAFE, of the cycle timers and of the filter read (R96, R115, R118) -/

/-- The laws of SAFE, of the cycle timers and of the filter together. -/
def State.safetyLaws (s : State) : Prop :=
  s.safeLaw ∧ s.cycleLaw ∧ s.filterLaw

abbrev KeepsSafety : State → State → Prop :=
  Keeps State.safetyLaws

/-- The record is not LIVE, as R118 asks of every record while SAFE is active. -/
def Record.atRest (r : Record) : Prop :=
  r.state ≠ .live

section
variable {s t : State}

theorem State.released_of_not_safeActive (h : ¬ s.safeActive = true) : s.safe.level = .released := by
  rw [State.safeActive_iff] at h
  cases hl : s.safe.level with
  | released => rfl
  | active => exact absurd hl h

/-- The laws stay where the group entries and the SAFE state do, and no record becomes LIVE while SAFE is active. -/
theorem KeepsSafety.of_records (groups : t.groups = s.groups) (safe : t.safe = s.safe)
    (rest : s.safeActive = true → s.everyRecord Record.atRest → t.everyRecord Record.atRest) : KeepsSafety s t := by
  refine ⟨fun ⟨hsafe, hcycle, hfilter⟩ => ⟨fun ha => ?_, ?_, ?_⟩⟩
  · rw [safe] at ha
    exact rest (s.safeActive_iff.mpr ha) (hsafe ha)
  · simpa only [State.cycleLaw, State.groupEntry, groups, safe] using hcycle
  · simpa only [State.filterLaw, safe] using hfilter

theorem KeepsSafety.elsewhere (table : t.table = s.table) (groups : t.groups = s.groups) (safe : t.safe = s.safe) :
    KeepsSafety s t :=
  .of_records groups safe fun _ h i r hr => h i r (by simpa only [State.slot, table] using hr)

/-- A group entry replaced by one that obeys R96. -/
theorem KeepsSafety.setGroupEntry {g : GroupNo} {x : GroupEntry}
    (h : x.timer ≠ .stopped ↔ x.period ≠ 0 ∧ s.safe.level = .released) : KeepsSafety s (s.setGroupEntry g x) := by
  refine ⟨fun ⟨hsafe, hcycle, hfilter⟩ => ⟨hsafe, fun k => ?_, hfilter⟩⟩
  rw [State.groupEntry_setGroupEntry]
  split
  · exact h
  · exact hcycle k

/-- The two sticky flags are no part of the laws (R122). -/
theorem KeepsSafety.setFlags (seen refused : Bool) :
    KeepsSafety s (s.setSafe { s.safe with seenActive := seen, commitRefused := refused }) :=
  ⟨id⟩

end

/-! ### Events that concern no record, no group and not the SAFE state -/

theorem KeepsSafety.freeSlot (s : State) (i : SlotNo) : KeepsSafety s (s.freeSlot i) := by
  refine .of_records (by rw [State.freeSlot_eq]) (by rw [State.freeSlot_eq]) fun _ h j r hr => ?_
  rw [State.freeSlot_slot] at hr
  split at hr
  · cases hr
  · exact h j r hr

theorem safetyLaws_ignoresPortsAndLink : IgnoresPortsAndLink State.safetyLaws where
  port _ _ _ := KeepsSafety.elsewhere (by simp) (by simp) (by simp)
  link _ _ := ⟨id⟩
  freed := KeepsSafety.freeSlot
  rxp _ _ := ⟨id⟩
  choices _ _ := ⟨id⟩
  pending _ _ := ⟨id⟩

theorem Keeps.notifyWriter {P : State → Prop} (h : IgnoresPortsAndLink P) (s : State) (w : WriterNo) (n : Notice) :
    Keeps P s (s.notifyWriter w n) := by
  unfold State.notifyWriter
  split
  · exact h.port ..
  · exact .refl

theorem Keeps.notifyOwner {P : State → Prop} (h : IgnoresPortsAndLink P) (s : State) (r : Record) (n : Notice) :
    Keeps P s (s.notifyOwner r n) := by
  unfold State.notifyOwner
  split
  · exact Keeps.notifyWriter h ..
  · exact .refl

theorem Keeps.freeSlots {P : State → Prop} (h : IgnoresPortsAndLink P) (s : State) (l : List SlotNo) :
    Keeps P s (l.foldl State.freeSlot s) :=
  .foldl h.freed l

theorem Keeps.applyLinkSettings {P : State → Prop} (h : IgnoresPortsAndLink P) (s : State) (new : LinkSettings) :
    Keeps P s (s.applyLinkSettings new) := by
  have configured := h.link s { s.link with settings := new }
  have disabled : ∀ t : State, Keeps P t t.disableLink := fun t =>
    (Keeps.freeSlots h t allSlots).trans (h.link ..)
  unfold State.applyLinkSettings
  dsimp only
  split
  · split
    · exact configured.trans (h.link ..)
    · exact configured
  · split
    · exact configured
    · exact configured.trans (disabled _)

/-! ### Events on one record -/

/-- A record takes new fields, by which it does not become LIVE while SAFE is active. -/
theorem KeepsSafety.change {s : State} {i : SlotNo} {r new : Record} (holds : s.slot i = .holding r)
    (entry : r.SameEntry new) (rest : s.safeActive = true → r.atRest → new.atRest) :
    KeepsSafety s (s.changeRecord i r new) := by
  have heq := s.changeRecord_eq i r new entry.sequence entry.publish entry.tag
  refine .of_records (by rw [heq]; rfl) (by rw [heq]; rfl) fun ha h j r' hr' => ?_
  rw [s.changeRecord_slot entry] at hr'
  split at hr'
  · cases hr'
    exact rest ha (h i r holds)
  · exact h j r' hr'

/-- The same for a change that leaves the record its state. -/
theorem KeepsSafety.changeFields {s : State} {i : SlotNo} {r new : Record} (holds : s.slot i = .holding r)
    (entry : r.SameEntry new) (state : new.state = r.state) : KeepsSafety s (s.changeRecord i r new) :=
  .change holds entry fun _ h => by rwa [Record.atRest, state]

/-- A loss of owner while SAFE is active turns a hold on expiry into one for SAFE (R40). -/
theorem Record.atRest_lossRow {r : Record} (h : r.atRest) : (r.lossRow true).atRest := by
  unfold Record.lossRow
  dsimp only
  split
  next hl => exact absurd hl h
  next hh _ => simp [Record.atRest, hh]
  · exact h

/-- Records dropped are retired, or become unowned by their row. -/
theorem KeepsSafety.of_drops {s t : State} {l : List SlotNo} {gone : Record → Bool}
    (h : s.Drops t l gone fun r => r.lossRow s.safeActive) : KeepsSafety s t := by
  refine .of_records (by rw [h.rest]) (by rw [h.rest]) fun ha hs j r hr => ?_
  rw [h.slot] at hr
  split at hr
  · unfold State.droppedSlot at hr
    split at hr
    next old hold =>
      split at hr
      · exact absurd hr (s.retiredSlot_ne_holding old r)
      · cases hr
        rw [ha]
        exact Record.atRest_lossRow (hs j old hold)
    next hn => exact absurd hr (hn r)
  · exact hs j r hr

theorem KeepsSafety.loseOwner {s : State} {i : SlotNo} {r : Record} (hs : s.slot i = .holding r) :
    KeepsSafety s (s.loseOwner i r) := by
  have h := KeepsSafety.of_drops (s.loseOwnerAt_drops i)
  rwa [State.loseOwnerAt, hs] at h

theorem KeepsSafety.retireRecord {s : State} {i : SlotNo} {r : Record} (hs : s.slot i = .holding r) :
    KeepsSafety s (s.retireRecord i r) := by
  have h := KeepsSafety.of_drops (s.retireSlot_drops i fun r => r.lossRow s.safeActive)
  rwa [State.retireSlot, hs] at h

section
variable {s : State} {i : SlotNo} {r : Record} {w : WriterNo} {prec : Nat}

theorem KeepsSafety.claimUnowned (hs : s.slot i = .holding r) : KeepsSafety s (s.claimUnowned i r w prec) :=
  Keeps.trans (t := s.raiseOwned w) ⟨id⟩ (KeepsSafety.changeFields hs ⟨rfl, rfl, rfl⟩ rfl)

theorem KeepsSafety.takeOver {old : WriterNo} (hs : s.slot i = .holding r) :
    KeepsSafety s (s.takeOver i r old w prec) := by
  refine Keeps.trans ?_ (Keeps.notifyWriter safetyLaws_ignoresPortsAndLink ..)
  exact Keeps.trans (t := (s.lowerOwned old).raiseOwned w) ⟨id⟩
    (KeepsSafety.changeFields (new := r.takenOver w prec) hs ⟨rfl, rfl, rfl⟩ rfl)

end

theorem KeepsSafety.dismissWriter (s : State) (w : WriterNo) : KeepsSafety s (s.dismissWriter w) := by
  have lost := KeepsSafety.of_drops (s.loseOwners_drops (s.ownedSlots w) (allSlots_nodup.filter _))
  unfold State.dismissWriter
  dsimp only
  split
  next p _ =>
    refine lost.trans (KeepsSafety.elsewhere ?_ ?_ ?_)
    all_goals rw [State.closeCursorOf_eq]; rfl
  · exact lost.trans ⟨id⟩

theorem KeepsSafety.clearTable (s : State) : KeepsSafety s s.clearTable := by
  have retired := KeepsSafety.of_drops
    (s.retireSlots_drops (fun r => r.lossRow s.safeActive) s.indexedSlots (allSlots_nodup.filter _))
  have port := safetyLaws_ignoresPortsAndLink.port
  exact retired.trans <| (port _ .a _).trans (port _ .b _)

/-! ### Commits (R89, R90, R96) -/

/-- While SAFE is released a record may become LIVE, and a restarted timer is one with a period. -/
theorem KeepsSafety.commit {s : State} (hr : s.safe.level = .released) (target : CommitTarget) :
    KeepsSafety s (s.commit target) := by
  obtain ⟨-, groups, frame⟩ := s.commit_spec target
  have safe : (s.commit target).safe = s.safe := by rw [frame]
  refine ⟨fun ⟨_, hcycle, hfilter⟩ => ⟨fun ha => ?_, fun g => ?_, by rwa [State.filterLaw, safe]⟩⟩
  · rw [safe, hr] at ha
    cases ha
  · have hg := hcycle g
    rw [groups, safe]
    split
    · by_cases hp : (s.groupEntry g).period = 0
      · rwa [if_pos hp]
      · rw [if_neg hp]
        exact iff_of_true (by simp) ⟨hp, hr⟩
    · exact hg

/-! ### SAFE entry and release (R97, R117, R120) -/

theorem Slot.after_eq_holding {x : Slot} {f : Record → Record} {r : Record} (h : x.after f = .holding r) :
    ∃ old, x = .holding old ∧ old.after (f old) = r := by
  cases x with
  | holding old => exact ⟨old, rfl, Slot.holding.inj h⟩
  | free => cases h
  | vacating => cases h

theorem Record.atRest_holdForSafe (r : Record) : (if r.state = .live then r.heldForSafe else r).atRest := by
  split
  · simp [Record.atRest, Record.heldForSafe]
  · assumption

/-- SAFE entry leaves no record LIVE and no cycle timer running, and ends the interval with the line low. -/
theorem KeepsSafety.safeEntry (s : State) : KeepsSafety s s.safeEntry := by
  unfold State.safeEntry
  split
  next h =>
    refine Keeps.trans ?_ (Keeps.notifyBoth safetyLaws_ignoresPortsAndLink ..)
    obtain ⟨⟨hslot, -⟩, hframe⟩ := State.everyRecordBecomes_foldl _ _ State.holdForSafe_spec (s.setSafe s.safe.entered)
    generalize allSlots.foldl State.holdForSafe (s.setSafe s.safe.entered) = u at *
    obtain ⟨hgroup, hgroups⟩ := u.stopCycles_spec
    generalize allGroups.foldl State.stopCycle u = t at *
    have safe : t.safe = s.safe.entered := by rw [hgroups, hframe]; rfl
    refine ⟨fun _ => ⟨fun _ i r hr => ?_, fun g => ?_, ?_⟩⟩
    · have hfrom : t.slot i = ((s.slot i).after fun r => if r.state = .live then r.heldForSafe else r) := by
        rw [← State.slot_setSafe s s.safe.entered, ← hslot i, hgroups]; rfl
      rw [hfrom] at hr
      obtain ⟨old, -, rfl⟩ := Slot.after_eq_holding hr
      exact old.atRest_holdForSafe
    · rw [hgroup, safe]
      simp [SafeState.entered]
    · rw [State.filterLaw, safe]
      simp [SafeState.entered, SafeState.opposed, h.2]
  · exact .refl

/-- SAFE release starts the timers of the groups with a period, and ends the interval with the line high. -/
theorem KeepsSafety.safeRelease (s : State) : KeepsSafety s s.safeRelease := by
  unfold State.safeRelease
  split
  next h =>
    refine Keeps.trans ?_ (Keeps.notifyBoth safetyLaws_ignoresPortsAndLink ..)
    obtain ⟨-, hframe⟩ := State.everyRecordBecomes_foldl _ _ State.releaseFromSafe_spec (s.setSafe s.safe.left)
    generalize allSlots.foldl State.releaseFromSafe (s.setSafe s.safe.left) = u at *
    obtain ⟨hgroup, hgroups⟩ := u.startCycles_spec
    generalize allGroups.foldl State.startCycle u = t at *
    have safe : t.safe = s.safe.left := by rw [hgroups, hframe]; rfl
    have entry : ∀ g, u.groupEntry g = s.groupEntry g := fun g => by rw [hframe]; rfl
    refine ⟨fun ⟨_, hcycle, _⟩ => ⟨fun ha => ?_, fun g => ?_, ?_⟩⟩
    · rw [safe] at ha
      cases ha
    · have hg := hcycle g
      rw [hgroup, safe, entry]
      by_cases hp : (s.groupEntry g).period = 0
      · simpa [hp] using hg
      · rw [if_neg hp]
        exact iff_of_true (by simp) ⟨hp, rfl⟩
    · rw [State.filterLaw, safe]
      simp [SafeState.left, SafeState.opposed, h.2]
  · exact .refl

end Sys2Proof.Machine

namespace Sys2Proof.Machine

/-! ### The operations that change one record -/

/-- The record a CREATE writes is DORMANT (R18). -/
theorem createRecord?_dormant {tag : Word16} {group : Byte} {lower upper fallback : Value} {clamp publish : Byte}
    {freshness : Word16} {holdPolicy holdPeriod orphan : Byte} {r : Record}
    (hr : createRecord? tag group lower upper fallback clamp publish freshness holdPolicy holdPeriod orphan = some r) :
    r.state = .dormant := by
  unfold createRecord? at hr
  split at hr
  · split at hr
    · cases hr
      rfl
    · cases hr
  · cases hr

section
variable (p : PortId) (w : WriterNo) (s : State)

theorem KeepsSafety.opCreate (tag : Word16) (group : Byte) (lower upper fallback : Value) (clamp publish : Byte)
    (freshness : Word16) (holdPolicy holdPeriod orphan : Byte) :
    KeepsSafety s
      (opCreate p w tag group lower upper fallback clamp publish freshness holdPolicy holdPeriod orphan s).2 := by
  refine .admitted fun _ => .require fun _ => ?_
  split
  · exact .refl
  next r hr =>
    refine .require fun _ => .require fun _ => ?_
    split
    · exact .refl
    next i _ =>
      refine KeepsSafety.of_records rfl rfl fun _ h j r' hr' => ?_
      change (s.addRecord i r).slot j = _ at hr'
      rw [State.addRecord_slot] at hr'
      split at hr'
      · cases hr'
        simp [Record.atRest, createRecord?_dormant hr]
      · exact h j r' hr'

/-- A CLAIM changes the record's owner, never its state (R52, R53, R55). -/
theorem KeepsSafety.opClaim (tag : Word16) (precedence : Byte) : KeepsSafety s (opClaim p w tag precedence s).2 := by
  refine .admitted fun _ => .require fun _ => .require fun _ => .require fun _ => .onRecord fun i r hs => ?_
  split
  · exact .require fun _ => KeepsSafety.claimUnowned hs
  · split
    · exact KeepsSafety.changeFields hs ⟨rfl, rfl, rfl⟩ rfl
    split
    · exact .refl
    split
    · exact .refl
    exact .require fun _ => KeepsSafety.takeOver hs

theorem KeepsSafety.opStage (tag : Word16) (value : Value) : KeepsSafety s (opStage p w tag value s).2 := by
  refine .onOwned fun i r hs _ => ?_
  split
  · exact .refl
  · have entry := r.sameEntry_refresh
    exact KeepsSafety.changeFields hs ⟨entry.tag, entry.publish, entry.sequence⟩ r.refresh_live_state.2.symm

/-- UNLATCH makes a record LIVE only while SAFE is released (R76). -/
theorem KeepsSafety.opUnlatch (tag : Word16) : KeepsSafety s (opUnlatch p w tag s).2 :=
  .onOwned fun _ r hs _ => .require fun _ =>
    KeepsSafety.change hs (r.sameEntry_unlatched _) fun ha _ => by simp [Record.atRest, Record.unlatched, ha]

theorem KeepsSafety.opSetLimits (tag : Word16) (lower upper : Value) :
    KeepsSafety s (opSetLimits p w tag lower upper s).2 := by
  refine .onShaped fun i r hs => ?_
  dsimp only
  split
  · exact .refl
  · exact KeepsSafety.changeFields hs ⟨rfl, rfl, rfl⟩ rfl

theorem KeepsSafety.opSetFallback (tag : Word16) (value : Value) : KeepsSafety s (opSetFallback p w tag value s).2 :=
  .onShaped fun _ r hs => .require fun _ =>
    KeepsSafety.changeFields hs (r.sameEntry_withFallback _) (by rw [Record.withFallback_eq])

theorem KeepsSafety.opSetSupervision (tag freshness : Word16) (holdPolicy holdPeriod orphan : Byte) :
    KeepsSafety s (opSetSupervision p w tag freshness holdPolicy holdPeriod orphan s).2 := by
  unfold Machine.opSetSupervision
  split
  · exact .onShaped fun _ _ _ => .refl
  · exact .onShaped fun _ _ hs => KeepsSafety.changeFields hs ⟨rfl, rfl, rfl⟩ rfl

theorem KeepsSafety.opSetGroup (tag : Word16) (group : Byte) : KeepsSafety s (opSetGroup p w tag group s).2 := by
  unfold Machine.opSetGroup
  split
  · exact .onShaped fun _ _ _ => .refl
  · exact .onShaped fun _ _ hs => KeepsSafety.changeFields hs ⟨rfl, rfl, rfl⟩ rfl

/-! ### The operations on groups (R93, R98) -/

/-- A COMMIT is refused while SAFE is active (R93). -/
theorem KeepsSafety.opCommit (group : Byte) : KeepsSafety s (opCommit p w group s).2 := by
  refine .admitted fun _ => .require fun _ => ?_
  split
  · exact .refl
  · split
    · exact KeepsSafety.setFlags ..
    next ha => exact KeepsSafety.commit (s.released_of_not_safeActive ha) _

/-- The timer set runs where there is a period and SAFE is released (R96). -/
theorem KeepsSafety.opSetCycle (group period : Byte) : KeepsSafety s (opSetCycle p w group period s).2 := by
  refine .admitted fun _ => .require fun _ => ?_
  split
  · exact .refl
  · refine KeepsSafety.setGroupEntry ?_
    split
    next ha => simp [s.safeActive_iff.mp ha]
    next ha =>
      by_cases hp : period = 0
      · simp [GroupEntry.restart, hp]
      · rw [GroupEntry.restart, if_neg hp]
        exact iff_of_true (by simp) ⟨hp, s.released_of_not_safeActive ha⟩

end

/-! ### Every operation keeps the laws -/

theorem KeepsSafety.applyOp (p : PortId) (w : WriterNo) (op : Op) (s : State) :
    KeepsSafety s (applyOp p w op s).2 := by
  have blind := safetyLaws_ignoresPortsAndLink
  cases op with
  | admitWriter => exact .require fun _ => ⟨id⟩
  | dismiss =>
    refine .admitted fun _ => .require fun _ => ?_
    split
    · exact .refl
    · exact .require fun _ => KeepsSafety.dismissWriter ..
  | setProfile =>
    refine .admitted fun _ => .require fun _ => ?_
    split
    · exact .require fun _ => .require fun _ => ⟨id⟩
    · exact .refl
  | readProfile =>
    refine .admitted fun _ => ?_
    split <;> exact .refl
  | create => exact KeepsSafety.opCreate ..
  | retire =>
    exact .admitted fun _ => .require fun _ => .require fun _ => .onRecord fun _ _ hs => .require fun _ =>
      KeepsSafety.retireRecord hs
  | read => exact .admitted fun _ => .require fun _ => .onRecord fun _ _ _ => .refl
  | claim => exact KeepsSafety.opClaim ..
  | release =>
    exact .admitted fun _ => .require fun _ => .onRecord fun _ _ hs => .require fun _ => KeepsSafety.loseOwner hs
  | stage => exact KeepsSafety.opStage ..
  | touch =>
    exact .onOwned fun _ r hs _ => KeepsSafety.changeFields hs r.sameEntry_refresh r.refresh_live_state.2.symm
  | unlatch => exact KeepsSafety.opUnlatch ..
  | setLimits => exact KeepsSafety.opSetLimits ..
  | setFallback => exact KeepsSafety.opSetFallback ..
  | setSupervision => exact KeepsSafety.opSetSupervision ..
  | setGroup => exact KeepsSafety.opSetGroup ..
  | commit => exact KeepsSafety.opCommit ..
  | setCycle => exact KeepsSafety.opSetCycle ..
  | setTrigger =>
    refine .admitted fun _ => .require fun _ => ?_
    split
    · exact KeepsSafety.elsewhere (by simp [accept]) (by simp [accept]) (by simp [accept])
    · exact .refl
  | readGroup =>
    refine .admitted fun _ => ?_
    split <;> exact .refl
  | linkStart => exact .admitted fun _ => .require fun _ => .require fun _ => blind.link ..
  | linkFlush =>
    exact .admitted fun _ => .require fun _ => .require fun _ =>
      (Keeps.freeSlots blind s s.retiringSlots).trans (blind.link ..)
  | resync => exact .admitted fun _ => .require fun _ => .require fun _ => blind.link ..
  | setLink =>
    refine .admitted fun _ => .require fun _ => ?_
    split
    · exact .refl
    · exact Keeps.applyLinkSettings blind ..
  | scan =>
    refine .admitted fun _ => ?_
    split
    · exact .refl
    · exact blind.port ..
  | scanNext =>
    refine .admitted fun _ => ?_
    split
    · exact .refl
    · exact .require fun _ => blind.port ..
  | poll => exact .admitted fun _ => blind.port ..
  | status => exact .admitted fun _ => KeepsSafety.setFlags ..
  | clearTable => exact .admitted fun _ => .require fun _ => .require fun _ => KeepsSafety.clearTable s

end Sys2Proof.Machine

namespace Sys2Proof.Machine

/-! ### Every command and the passing of time keep the laws -/

section
variable (s : State)

theorem KeepsSafety.tick : KeepsSafety s s.tick := by
  refine ⟨fun ⟨hsafe, hcycle, hfilter⟩ => ⟨fun ha i r hr => ?_, fun g => ?_, ?_⟩⟩
  · rw [State.tick_slot] at hr
    cases hold : s.slot i with
    | holding old =>
      rw [hold] at hr
      cases hr
      exact hsafe ha i old hold
    | free => simp [hold, Slot.tick] at hr
    | vacating => simp [hold, Slot.tick] at hr
  · rw [State.tick_groupEntry, State.tick_level, ne_eq, Timer.tick_eq_stopped]
    exact hcycle g
  · exact (not_congr (Timer.tick_eq_stopped _)).trans hfilter

/-- A reset releases SAFE, and with the line low starts the interval (R116). -/
theorem KeepsSafety.afterReset : KeepsSafety s s.afterReset := by
  refine ⟨fun _ => ⟨nofun, resetStateIsLawful.cycle, ?_⟩⟩
  cases hl : s.safe.lineHigh <;>
    simp [State.filterLaw, State.afterReset, SafeState.afterReset, SafeState.opposed, SafeState.reset,
      stabilityStart, hl]

theorem KeepsSafety.breakDismissal (p : PortId) : KeepsSafety s (s.breakDismissal p) := by
  unfold State.breakDismissal
  split
  · exact KeepsSafety.dismissWriter ..
  · exact .refl

theorem KeepsSafety.batchApplication (p : PortId) : KeepsSafety s (s.batchApplication p) := by
  unfold State.batchApplication
  split
  · split
    · exact (Keeps.applyBatch (KeepsSafety.applyOp p _) _ s).trans (safetyLaws_ignoresPortsAndLink.port ..)
    · exact .refl
  · exact .refl

/-- A cycle timer runs only while SAFE is released (R96). -/
theorem KeepsSafety.cycleExpiry (g : GroupNo) : KeepsSafety s (s.cycleExpiry g) := by
  unfold State.cycleExpiry
  split
  · exact .refl
  next hrun => exact ⟨fun hs => (KeepsSafety.commit ((hs.2.1 g).mp hrun).2 _).law hs⟩

theorem KeepsSafety.risingEdge (l : TriggerLine) : KeepsSafety s (s.risingEdge l) := by
  unfold State.risingEdge
  split
  · split
    · exact KeepsSafety.setFlags ..
    next ha => exact KeepsSafety.commit (s.released_of_not_safeActive ha) _
  · exact .refl

theorem KeepsSafety.freshnessExpiry (i : SlotNo) : KeepsSafety s (s.freshnessExpiry i) := by
  unfold State.freshnessExpiry
  split
  next r hs =>
    split
    next hl =>
      exact (KeepsSafety.change hs r.sameEntry_freshnessExpired fun _ h => absurd hl.1 h).trans
        (Keeps.notifyOwner safetyLaws_ignoresPortsAndLink ..)
    · exact .refl
  · exact .refl

/-- A hold that expires while SAFE is active goes on for SAFE, or on expiry, or is LATCHED (R110). -/
theorem Record.atRest_holdExpired {r : Record} (h : r.atRest) : (r.holdExpired true).atRest := by
  unfold Record.holdExpired
  split
  · exact h
  · split
    · exact h
    · simp [Record.atRest]

theorem KeepsSafety.holdTimerExpiry (i : SlotNo) : KeepsSafety s (s.holdTimerExpiry i) := by
  unfold State.holdTimerExpiry
  split
  next r hs =>
    split
    · refine (KeepsSafety.change hs (r.sameEntry_holdExpired s.safeActive) fun ha h => ?_).trans ?_
      · rw [ha]
        exact Record.atRest_holdExpired h
      · dsimp only
        split
        · exact Keeps.notifyOwner safetyLaws_ignoresPortsAndLink ..
        · exact .refl
    · exact .refl
  · exact .refl

/-- The interval starts where the line comes to oppose the filtered level, and stops where it returns (R115). -/
theorem KeepsSafety.safeNChange (high : Bool) : KeepsSafety s (s.safeNChange high) := by
  unfold State.safeNChange
  split
  · exact .refl
  · refine ⟨fun ⟨hsafe, hcycle, _⟩ => ⟨hsafe, hcycle, ?_⟩⟩
    dsimp only
    split
    next ho => exact iff_of_true (by simp [stabilityStart]) ho
    next ho => exact iff_of_false (by simp) ho

end

theorem KeepsSafety.exec {c : Instr} {s t : State} (h : exec c s = .next t) : KeepsSafety s t := by
  have blind := safetyLaws_ignoresPortsAndLink
  cases c
  case powerOnReset => cases h; exact KeepsSafety.afterReset s
  case rstN => cases h; exact KeepsSafety.afterReset s
  case selectActivation => cases h; exact Keeps.selectActivation blind ..
  case request => cases h; exact Keeps.request blind ..
  case frameCompletion => cases h; exact Keeps.frameCompletion blind ..
  case readout => cases h; exact Keeps.readout blind ..
  case readoutEnd => cases h; exact Keeps.readoutEnd blind ..
  case transactionIgnored => cases h; exact Keeps.transactionIgnored blind ..
  case portBreak => cases h; exact Keeps.portBreak blind ..
  case breakDismissal => cases h; exact KeepsSafety.breakDismissal ..
  case breakCompletion => cases h; exact Keeps.breakCompletion blind ..
  case batchApplication => cases h; exact KeepsSafety.batchApplication ..
  case clockEdge => cases h; exact Keeps.clockEdge blind ..
  case selectRelease => cases h; exact blind.port ..
  case freshnessExpiry => cases h; exact KeepsSafety.freshnessExpiry ..
  case holdTimerExpiry => cases h; exact KeepsSafety.holdTimerExpiry ..
  case cycleTimerExpiry => cases h; exact KeepsSafety.cycleExpiry ..
  case risingEdge => cases h; exact KeepsSafety.risingEdge ..
  case safeNChange => cases h; exact KeepsSafety.safeNChange ..
  case safeEntry => cases h; exact KeepsSafety.safeEntry s
  case safeRelease => cases h; exact KeepsSafety.safeRelease s
  case sendEvent => cases h; exact Keeps.sendEvent blind s
  case endOfTransmission => cases h; exact Keeps.endOfTransmission blind s
  case acknowledgement => cases h; exact Keeps.acknowledgement blind ..
  case acknowledgementTimerExpiry => cases h; exact Keeps.ackTimerExpiry blind s
  case rxpByte => cases h; exact Keeps.rxpByte blind ..
  all_goals
    rw [exec_operation rfl] at h
    cases h
    exact (KeepsSafety.applyOp ..).trans ⟨id⟩

/-- Settles O58: every command and the passing of time keep the three laws together. A cycle timer's expiry leans on the
law of the timers, by which SAFE is released then. -/
theorem stepKeepsSafeLaws : Obligations.StepKeepsSafeLaws :=
  fun _ _ hsafe hcycle hfilter h =>
    (Keeps.step safetyLaws_ignoresPortsAndLink KeepsSafety.tick KeepsSafety.exec h).law ⟨hsafe, hcycle, hfilter⟩

end Sys2Proof.Machine

namespace Sys2Proof.Machine

/-! ### The operands of a SCAN (R168) -/

theorem ownerFilter?_eq_none (b : Byte) : ownerFilter? b = none ↔ 7 < b.toNat ∧ b ≠ 0xFE ∧ b ≠ 0xFF := by
  unfold ownerFilter?
  split
  next h => simp [h]
  · split
    next h => simp [h]
    next hany hun =>
      simp only [Option.map_eq_none_iff, writerNo?_eq_none, ne_eq, hany, hun, not_false_eq_true, and_true]

theorem groupFilter?_eq_none (b : Byte) : groupFilter? b = none ↔ (b = 0 ∨ 15 < b.toNat) ∧ b ≠ 0xFF := by
  unfold groupFilter?
  split
  next h => simp [h]
  next hany => simp only [Option.map_eq_none_iff, groupNo?_eq_none, ne_eq, hany, not_false_eq_true, and_true]

theorem filter?_eq_none (stateSet owner group : Byte) :
    filter? stateSet owner group = none ↔
      15 < stateSet.toNat ∨ (7 < owner.toNat ∧ owner ≠ 0xFE ∧ owner ≠ 0xFF) ∨
        (group = 0 ∨ 15 < group.toNat) ∧ group ≠ 0xFF := by
  rw [← ownerFilter?_eq_none, ← groupFilter?_eq_none]
  unfold filter?
  split
  next ho hg =>
    rw [ho, hg]
    split
    · simp; omega
    · simp; omega
  next hnone =>
    refine ⟨fun _ => .inr ?_, fun _ => rfl⟩
    by_contra hin
    simp only [not_or, ← ne_eq, Option.ne_none_iff_exists'] at hin
    obtain ⟨⟨o, ho⟩, g, hg⟩ := hin
    exact hnone o g ho hg

/-! ### The operations without a tag answer by the first check that fails -/

/-- An operand read by `x`: its step refuses with BAD_OPERAND where there is no reading. -/
theorem Answers.operand {α : Type} {x : Option α} {a : Applied} {s : State} {bad : Prop} [Decidable bad]
    {after : Status} (hbad : x = none ↔ bad) (hnone : x = none → a = Machine.refuse .badOperand s)
    (hsome : ∀ y, x = some y → Answers a s after) : Answers a s (if bad then .badOperand else after) := by
  cases hx : x with
  | none =>
    rw [if_pos (hbad.mp hx), hnone hx]
    exact .refuse
  | some y =>
    rw [if_neg fun hb => by simp [hbad.mpr hb] at hx]
    exact hsome y hx

section
variable {p : PortId} {w : WriterNo} {s : State}

theorem opCommit_answers (hw : s.speaks p w) (hlevel : s.safe.level = .released) (group : Byte) :
    Answers (opCommit p w group s) s
      (if (s.profile w).rights.getLsbD 4 = false then .noRight else if 15 < group.toNat then .badOperand else .ok) := by
  have hsafe : s.safeActive = false := by simp [State.safeActive, hlevel]
  refine .admitted hw <| .require (Profile.holds_iff _ .commit) fun _ =>
    .operand (commitTarget?_eq_none group) (fun h => by rw [h]) fun t ht => ?_
  rw [ht, hsafe]
  exact .accept

theorem opSetCycle_answers (hw : s.speaks p w) (group period : Byte) :
    Answers (opSetCycle p w group period s) s
      (if (s.profile w).rights.getLsbD 4 = false then .noRight
       else if group = 0 ∨ 15 < group.toNat then .badOperand else .ok) := by
  refine .admitted hw <| .require (Profile.holds_iff _ .commit) fun _ =>
    .operand (groupNo?_eq_none group) (fun h => by rw [h]) fun g hg => ?_
  rw [hg]
  exact .accept

theorem opLinkStart_answers (hw : s.speaks p w) :
    Answers (opLinkStart p w s) s
      (if (s.profile w).rights.getLsbD 5 = false then .noRight
       else if s.link.state ≠ .down then .linkState else .ok) :=
  .admitted hw <| .require (Profile.holds_iff _ .link) fun _ => .require not_ne_iff.symm fun _ => .accept

theorem opLinkFlush_answers (hw : s.speaks p w) :
    Answers (opLinkFlush p w s) s
      (if (s.profile w).rights.getLsbD 5 = false then .noRight
       else if s.link.state = .off then .linkState else .ok) :=
  .admitted hw <| .require (Profile.holds_iff _ .link) fun _ => .require Iff.rfl fun _ => .accept

theorem opResync_answers (hw : s.speaks p w) :
    Answers (opResync p w s) s
      (if (s.profile w).rights.getLsbD 5 = false then .noRight
       else if s.link.state = .off then .linkState else .ok) :=
  .admitted hw <| .require (Profile.holds_iff _ .link) fun _ => .require Iff.rfl fun _ => .accept

theorem opReadProfile_answers (hw : s.speaks p w) (target : Byte) :
    Answers (opReadProfile p w target s) s (if 7 < target.toNat then .badOperand else .ok) := by
  refine .admitted hw <| .operand (writerNo?_eq_none target) (fun h => by rw [h]) fun v hv => ?_
  rw [hv]
  exact .accept

theorem opReadGroup_answers (hw : s.speaks p w) (group : Byte) :
    Answers (opReadGroup p w group s) s (if group = 0 ∨ 15 < group.toNat then .badOperand else .ok) := by
  refine .admitted hw <| .operand (groupNo?_eq_none group) (fun h => by rw [h]) fun g hg => ?_
  rw [hg]
  exact .accept

theorem opScan_answers (hw : s.speaks p w) (states owner group : Byte) :
    Answers (opScan p w states owner group s) s
      (if 15 < states.toNat ∨ (7 < owner.toNat ∧ owner ≠ 0xFE ∧ owner ≠ 0xFF) ∨
         (group = 0 ∨ 15 < group.toNat) ∧ group ≠ 0xFF then .badOperand else .ok) := by
  refine .admitted hw <| .operand (filter?_eq_none states owner group) (fun h => by rw [h]) fun f hf => ?_
  rw [hf]
  exact .accept

theorem opScanNext_answers (hw : s.speaks p w) :
    Answers (opScanNext p w s) s (if (s.port p).cursor.any (fun c => c.writer == w) then .ok else .noCursor) := by
  refine .admitted hw ?_
  cases hc : (s.port p).cursor with
  | none => exact .refuse
  | some c =>
    dsimp only
    by_cases ho : c.writer = w
    · rw [require_of _ _ _ _ ho, if_pos (by simpa using ho)]
      exact .accept
    · rw [require_not _ _ _ _ ho, if_neg (by simpa using ho)]
      exact .refuse

end

/-- Settles O9: the eleven operations, each by its own steps. -/
theorem untaggedOperationsCheckInOrder : Obligations.UntaggedOperationsCheckInOrder :=
  fun _ _ _ hw =>
    ⟨fun group hlevel => answersInOrder_of_answers rfl (opCommit_answers hw hlevel group),
      fun group period => answersInOrder_of_answers rfl (opSetCycle_answers hw group period),
      answersInOrder_of_answers rfl (opLinkStart_answers hw),
      answersInOrder_of_answers rfl (opLinkFlush_answers hw),
      answersInOrder_of_answers rfl (opResync_answers hw),
      fun target => answersInOrder_of_answers rfl (opReadProfile_answers hw target),
      fun group => answersInOrder_of_answers rfl (opReadGroup_answers hw group),
      fun states owner group => answersInOrder_of_answers rfl (opScan_answers hw states owner group),
      answersInOrder_of_answers rfl (opScanNext_answers hw),
      answersInOrder_of_answers rfl (.admitted hw .accept),
      answersInOrder_of_answers rfl (.admitted hw .accept)⟩

end Sys2Proof.Machine

namespace Sys2Proof.Machine

/-! ### A commit leaves the last result (R89, R90) -/

theorem commitTarget?_ofNat (t : CommitTarget) : commitTarget? (BitVec.ofNat 8 t.val) = some t := by
  have ht : (BitVec.ofNat 8 t.val).toNat = t.val := by rw [BitVec.toNat_ofNat]; omega
  unfold commitTarget?
  rw [dif_pos (by omega)]
  exact congrArg some (Fin.ext ht)

section
variable (s : State) (target : CommitTarget)

theorem State.commitSlot_result (i : SlotNo) : (s.commitSlot target i).result = s.result := by
  obtain ⟨-, -, frame⟩ := State.commitSlot_spec target s i
  rw [frame]

theorem State.commitGroup_result (g : GroupNo) : (s.commitGroup target g).result = s.result := by
  unfold State.commitGroup
  split <;> rfl

theorem State.commit_result : (s.commit target).result = s.result := by
  unfold State.commit
  refine List.foldlRecOn (motive := fun u : State => u.result = s.result) allGroups _ ?_ fun u hu g _ =>
    (u.commitGroup_result target g).trans hu
  exact List.foldlRecOn (motive := fun u : State => u.result = s.result) allSlots _ rfl fun u hu i _ =>
    (u.commitSlot_result target i).trans hu

end

/-- The result of an operation is no part of a commit. -/
theorem State.Commits.answered {s : State} {target : CommitTarget} {a : Applied} (h : s.Commits a.2 target) :
    s.Commits (answered a) target := by
  obtain ⟨records, groups, frame⟩ := h
  refine ⟨records, groups, ?_⟩
  unfold Machine.answered
  generalize a.2 = t at *
  rw [frame]

/-! ### COMMIT (R93, R94) -/

section
variable {p : PortId} {w : WriterNo} {s : State}

theorem opCommit_noRight (hw : s.speaks p w) (hright : (s.profile w).rights.getLsbD 4 = false) (group : Byte) :
    opCommit p w group s = refuse .noRight s := by
  unfold opCommit
  rw [admitted_of_speaks hw, require_not _ _ _ _ fun h => (Profile.holds_iff _ .commit).mp h hright]

variable (hw : s.speaks p w) (hright : (s.profile w).rights.getLsbD 4 = true)
include hw hright

theorem opCommit_badOperand {group : Byte} (hbad : 15 < group.toNat) : opCommit p w group s = refuse .badOperand s := by
  have hholds : (s.profile w).holds .commit = true := hright
  unfold opCommit
  rw [admitted_of_speaks hw, require_of _ _ _ _ hholds, (commitTarget?_eq_none group).mpr hbad]

/-- With the right and a target, the level of SAFE decides. -/
theorem opCommit_of_target {group : Byte} {target : CommitTarget} (ht : commitTarget? group = some target) :
    opCommit p w group s =
      if s.safeActive then refuse .safeActive s.flagCommitRefused
      else accept (.committed (s.changedCount target) ((s.commit target).groupEntry (reportedGroup target)).count)
        (s.commit target) := by
  have hholds : (s.profile w).holds .commit = true := hright
  unfold opCommit
  rw [admitted_of_speaks hw, require_of _ _ _ _ hholds, ht]

end

theorem reportedGroup_eq {target : CommitTarget} {g : GroupNo}
    (h : target.val = g.val + 1 ∨ target.val = 0 ∧ g.val = 0) : reportedGroup target = g :=
  Fin.ext (by simp only [reportedGroup]; omega)

/-- Settles O28: the accepted COMMIT is the commit of its target; while SAFE is active each check refuses in turn. -/
theorem commitMakesStagedValuesLive : Obligations.CommitMakesStagedValuesLive := by
  intro p w s hw
  refine ⟨fun target g hright hlevel hg => ?_, fun group hlevel => ?_⟩
  · have hreleased : ¬ s.safeActive = true := by simp [hlevel]
    have hop : applyOp p w (.commit (BitVec.ofNat 8 target.val)) s =
        accept (.committed (s.changedBy target) ((s.commit target).groupEntry g).count) (s.commit target) := by
      rw [applyOp, opCommit_of_target hw hright (commitTarget?_ofNat target), if_neg hreleased, s.changedCount_eq,
        reportedGroup_eq hg]
    exact ⟨_, exec_of_applyOp rfl hop, State.Commits.answered (s.commit_spec target), rfl⟩
  · split
    next hright => exact exec_of_applyOp (op := .commit group) rfl (opCommit_noRight hw hright group)
    next hright =>
      have hright : (s.profile w).rights.getLsbD 4 = true := by simpa using hright
      split
      next hbad => exact exec_of_applyOp (op := .commit group) rfl (opCommit_badOperand hw hright hbad)
      next hin =>
        obtain ⟨target, ht⟩ := Option.ne_none_iff_exists'.mp (mt (commitTarget?_eq_none group).mp hin)
        exact exec_of_applyOp (op := .commit group) rfl <|
          (opCommit_of_target hw hright ht).trans (if_pos (s.safeActive_iff.mpr hlevel))

/-! ### Timers and lines (R96, R100, R101) -/

/-- Settles O29: both events are a commit where they act. -/
theorem timersAndLinesCommit : Obligations.TimersAndLinesCommit := by
  intro s
  refine ⟨fun g hrun => ⟨s.commit g.succ, ?_, s.commit_spec _, s.commit_result _⟩, fun g hstop => ?_,
    fun l hon hlevel => ⟨s.commit (s.trigger l).group, ?_, s.commit_spec _, s.commit_result _⟩,
    fun l hon hlevel => ?_, fun l hoff => ?_⟩
  · exact congrArg Host.Outcome.next (if_neg hrun)
  · exact congrArg Host.Outcome.next (if_pos hstop)
  · have hsafe : ¬ s.safeActive = true := by simp [hlevel]
    exact congrArg Host.Outcome.next ((if_pos hon).trans (if_neg hsafe))
  · exact congrArg Host.Outcome.next ((if_pos hon).trans (if_pos (s.safeActive_iff.mpr hlevel)))
  · exact congrArg Host.Outcome.next (if_neg (by simp [hoff]))

/-! ### SET_CYCLE and SET_TRIGGER (R96, R98, R102) -/

section
variable {p : PortId} {w : WriterNo} {s : State}

theorem opSetCycle_of_right (hw : s.speaks p w) (hright : (s.profile w).rights.getLsbD 4 = true) (g : GroupNo)
    (period : Byte) :
    opSetCycle p w (BitVec.ofNat 8 (g.val + 1)) period s =
      accept (.previousPeriod (s.groupEntry g).period)
        (s.setGroupEntry g
          { period := period, count := (s.groupEntry g).count,
            timer := if period = 0 ∨ s.safe.level = .active then .stopped else .running (ms period.toNat) }) := by
  have hholds : (s.profile w).holds .commit = true := hright
  unfold opSetCycle
  rw [admitted_of_speaks hw, require_of _ _ _ _ hholds, groupNo?_ofNat]
  dsimp only
  by_cases ha : s.safeActive = true
  · rw [if_pos ha, if_pos (.inr (s.safeActive_iff.mp ha))]
  · have hlevel : s.safe.level ≠ .active := mt s.safeActive_iff.mpr ha
    simp only [if_neg ha, GroupEntry.restart, hlevel, or_false]

theorem opSetTrigger_of_line (hw : s.speaks p 0) {line : Byte} {l : TriggerLine} (hl : triggerLine? line = some l)
    (enabled : Bool) (target : CommitTarget) :
    opSetTrigger p 0 line (BitVec.ofNat 8 enabled.toNat) (BitVec.ofNat 8 target.val) s =
      accept (.previousTrigger (s.trigger l)) (s.setTrigger l { enabled := enabled, group := target }) := by
  unfold opSetTrigger
  rw [admitted_of_speaks hw, require_of _ _ _ _ rfl, hl, yesNo?_ofNat, commitTarget?_ofNat]

end

/-- Settles O30: the operands read back make the period, or the line's entry. -/
theorem cyclesAndTriggersAreSet : Obligations.CyclesAndTriggersAreSet := by
  intro p w s hw
  refine ⟨fun g period hright =>
    exec_of_applyOp (op := .setCycle _ period) rfl (opSetCycle_of_right hw hright g period), ?_⟩
  rintro enabled target rfl
  exact ⟨exec_of_applyOp (op := .setTrigger ..) rfl (opSetTrigger_of_line hw (l := .trg0) rfl enabled target),
    exec_of_applyOp (op := .setTrigger ..) rfl (opSetTrigger_of_line hw (l := .trg1) rfl enabled target)⟩

end Sys2Proof.Machine

namespace Sys2Proof.Machine

/-! ### SAFE entry and release (R97, R117, R119, R120, R121) -/

section
variable {s t u : State} {f : Record → Record}

/-- What becomes of the records shows in the table and the link alone. -/
theorem State.EveryRecordBecomes.of_same (h : s.EveryRecordBecomes u f) (table : t.table = u.table)
    (link : t.link = u.link) : s.EveryRecordBecomes t f := by
  obtain ⟨hslot, hqueue⟩ := h
  have slot : ∀ i, t.slot i = u.slot i := fun i => congrArg (Table.read · i) table
  exact ⟨fun i => (slot i).trans (hslot i), (congrArg Link.queue link).trans hqueue⟩

end

/-- SAFE entry and SAFE release have one shape: a new SAFE state, a fold over the slots, a fold over the groups, and a
notice to both ports. -/
theorem State.safeChange_spec (s : State) (x : SafeState) (n : Notice) {f : Record → Record}
    {e : GroupEntry → GroupEntry} {onSlot : State → SlotNo → State} {onGroup : State → GroupNo → State}
    (hslots : ∀ (u : State) i, u.SlotBecomes (onSlot u i) i f)
    (hgroups : ∀ u : State, (∀ g, (allGroups.foldl onGroup u).groupEntry g = e (u.groupEntry g)) ∧
      allGroups.foldl onGroup u = { u with groups := (allGroups.foldl onGroup u).groups }) :
    ∃ t, t = (allGroups.foldl onGroup (allSlots.foldl onSlot (s.setSafe x))).notifyBoth n ∧
      s.EveryRecordBecomes t f ∧ (∀ g, t.groupEntry g = e (s.groupEntry g)) ∧ s.NotifiesBoth t n ∧
      t = { s with
        table := t.table, groups := t.groups, link := { s.link with queue := t.link.queue }, safe := x,
        portA := t.portA, portB := t.portB } := by
  obtain ⟨hrecords, hframe⟩ := State.everyRecordBecomes_foldl f onSlot hslots (s.setSafe x)
  generalize allSlots.foldl onSlot (s.setSafe x) = u at *
  obtain ⟨hentry, hrest⟩ := hgroups u
  generalize allGroups.foldl onGroup u = v at *
  have entry : ∀ g, u.groupEntry g = s.groupEntry g := fun g => by rw [hframe]; rfl
  have port : ∀ p, v.port p = s.port p := fun p => by rw [hrest, hframe]; cases p <;> rfl
  refine ⟨v.notifyBoth n, rfl, ?_, fun g => ?_, fun p => ?_, ?_⟩
  · exact State.EveryRecordBecomes.of_same (s := s) hrecords (by rw [hrest]; rfl) (by rw [hrest]; rfl)
  · exact (hentry g).trans (congrArg e (entry g))
  · rw [← port p]
    exact (v.notifyBoth_spec n).1 p
  · rw [hrest, hframe]
    rfl

/-- Settles O32: entry sweeps the slots with the hold and the groups with the stop. -/
theorem safeEntryHoldsEveryLiveRecord : Obligations.SafeEntryHoldsEveryLiveRecord := by
  intro s
  refine ⟨fun hrun hlow => ?_, fun hnot => ?_⟩
  · obtain ⟨t, ht, hspec⟩ := s.safeChange_spec s.safe.entered (.safeChanged .active)
      (e := fun e => { e with timer := .stopped }) State.holdForSafe_spec State.stopCycles_spec
    have hentry : s.safeEntry = t := (if_pos ⟨hrun, hlow⟩).trans ht.symm
    exact ⟨t, congrArg Host.Outcome.next hentry, hspec⟩
  · have hno : ¬ (s.safe.stability ≠ .stopped ∧ s.safe.lineHigh = false) := fun ⟨hrun, hlow⟩ =>
      hnot.elim hrun (by simp [hlow])
    exact congrArg Host.Outcome.next (if_neg hno)

theorem Record.releasedFromSafe_eq (r : Record) :
    r.releasedFromSafe = { r with
      state := .live, holdCause := none,
      countdown := if r.owner.isSome then countdownFor r.freshnessCode else r.countdown } := by
  unfold Record.releasedFromSafe
  cases r.owner <;> rfl

/-- Settles O33: release sweeps the slots with the return to LIVE and the groups with the start. -/
theorem safeReleaseReturnsHeldRecords : Obligations.SafeReleaseReturnsHeldRecords := by
  intro s
  refine ⟨fun hrun hhigh => ?_, fun hnot => ?_⟩
  · obtain ⟨t, ht, hspec⟩ := s.safeChange_spec s.safe.left (.safeChanged .released)
      (e := fun e => if e.period = 0 then e else { e with timer := .running (ms e.period.toNat) })
      State.releaseFromSafe_spec State.startCycles_spec
    have hrelease : s.safeRelease = t := (if_pos ⟨hrun, hhigh⟩).trans ht.symm
    simp only [Record.releasedFromSafe_eq] at hspec
    exact ⟨t, congrArg Host.Outcome.next hrelease, hspec⟩
  · have hno : ¬ (s.safe.stability ≠ .stopped ∧ s.safe.lineHigh = true) := fun ⟨hrun, hhigh⟩ =>
      hnot.elim hrun (by simp [hhigh])
    exact congrArg Host.Outcome.next (if_neg hno)

/-! ### An expiry that changes one record (R108, R110, R112) -/

section
variable {s : State} {i : SlotNo} {r : Record} {w : WriterNo}

/-- The owner is told of a change of its record: the record and the queue change, the notice reaches the owner's port,
and nothing else changes. -/
theorem State.changeRecord_notifyOwner_spec {new : Record} (he : r.SameEntry new) (ho : r.owner = some w) (n : Notice) :
    ∃ t, t = (s.changeRecord i r new).notifyOwner r n ∧ s.OneRecordBecomes t i r new ∧ s.Notifies t w n ∧
      t = { s with
        table := t.table, link := { s.link with queue := t.link.queue }, portA := t.portA, portB := t.portB } := by
  obtain ⟨hbecomes, hframe⟩ := s.changeRecord_spec i r new he.sequence he.publish he.tag
  generalize s.changeRecord i r new = u at *
  have htell : u.notifyOwner r n = u.notifyWriter w n := by rw [State.notifyOwner, ho]
  obtain ⟨hnotice, hrest⟩ := u.notifyWriter_spec w n
  rw [htell]
  generalize u.notifyWriter w n = t at *
  have hbinding : (u.writer w).binding = (s.writer w).binding := by rw [hframe]; rfl
  have hport : ∀ p, u.port p = s.port p := fun p => by rw [hframe]; cases p <;> rfl
  refine ⟨t, rfl, ?_, hnotice.of_same hbinding hport, ?_⟩
  · rw [hrest]
    exact hbecomes
  · rw [hrest, hframe]

/-! ### Freshness expiry (R108) -/

theorem State.freshnessExpiry_of_running (hs : s.slot i = .holding r) (hl : r.state = .live)
    (hc : r.countdown ≠ .stopped) :
    s.freshnessExpiry i = (s.changeRecord i r r.freshnessExpired).notifyOwner r r.freshnessNotice := by
  unfold State.freshnessExpiry
  rw [hs]
  exact if_pos ⟨hl, hc⟩

theorem State.freshnessExpiry_of_not_running
    (h : ¬ ∃ r, s.slot i = .holding r ∧ r.state = .live ∧ r.countdown ≠ .stopped) : s.freshnessExpiry i = s := by
  unfold State.freshnessExpiry
  split
  next r hs => exact if_neg fun hrun => h ⟨r, hs, hrun⟩
  · rfl

theorem Record.freshnessExpired_of_resume (hp : r.holdPolicy = .resume) :
    r.freshnessExpired = { r with
      state := .held, holdCause := some .expiry, refreshed := some false, live := some r.fallback, staged := none,
      countdown := .stopped, holdTimer := holdTimerFor r.holdPeriod } := by
  rw [Record.freshnessExpired, hp]

theorem Record.freshnessExpired_of_latch (hp : r.holdPolicy = .latch) :
    r.freshnessExpired =
      { r with state := .latched, live := some r.fallback, staged := none, countdown := .stopped } := by
  rw [Record.freshnessExpired, hp]

theorem Record.freshnessNotice_of_resume (hp : r.holdPolicy = .resume) : r.freshnessNotice = .holdEntered r.tag := by
  rw [Record.freshnessNotice, hp]

theorem Record.freshnessNotice_of_latch (hp : r.holdPolicy = .latch) : r.freshnessNotice = .latched r.tag := by
  rw [Record.freshnessNotice, hp]

end

/-- Settles O34: the hold policy picks the row of R108. -/
theorem freshnessExpiryHoldsOrLatches : Obligations.FreshnessExpiryHoldsOrLatches := by
  intro i s
  refine ⟨fun r w hs hl hc ho => ?_, fun hnot => congrArg Host.Outcome.next (State.freshnessExpiry_of_not_running hnot)⟩
  obtain ⟨t, ht, hbecomes, hnotice, hframe⟩ :=
    State.changeRecord_notifyOwner_spec (s := s) (i := i) r.sameEntry_freshnessExpired ho r.freshnessNotice
  have hexpiry : s.freshnessExpiry i = t := (State.freshnessExpiry_of_running hs hl hc).trans ht.symm
  refine ⟨t, congrArg Host.Outcome.next hexpiry, fun hp => ?_, fun hp => ?_, hframe⟩
  · rw [Record.freshnessExpired_of_resume hp] at hbecomes
    rw [Record.freshnessNotice_of_resume hp] at hnotice
    exact ⟨hbecomes, hnotice⟩
  · rw [Record.freshnessExpired_of_latch hp] at hbecomes
    rw [Record.freshnessNotice_of_latch hp] at hnotice
    exact ⟨hbecomes, hnotice⟩

/-! ### Hold-timer expiry (R110) -/

section
variable {s : State} {i : SlotNo} {r : Record} {w : WriterNo}

theorem State.holdTimerExpiry_of_not_running
    (h : ¬ ∃ r, s.slot i = .holding r ∧ r.state = .held ∧ r.holdCause = some .expiry ∧ r.holdTimer ≠ .stopped) :
    s.holdTimerExpiry i = s := by
  unfold State.holdTimerExpiry
  split
  next r hs => exact if_neg fun hrun => h ⟨r, hs, hrun⟩
  · rfl

/-- An expiry of a running hold timer: the record becomes what its row gives, the owner is told what the row raises or
no port changes, and nothing else changes. -/
theorem State.holdTimerExpiry_spec (hs : s.slot i = .holding r) (hheld : r.state = .held)
    (hcause : r.holdCause = some .expiry) (hrun : r.holdTimer ≠ .stopped) (ho : r.owner = some w) :
    ∃ t, s.holdTimerExpiry i = t ∧ s.OneRecordBecomes t i r (r.holdExpired s.safeActive) ∧
      (∀ n, r.holdNotice s.safeActive = some n → s.Notifies t w n) ∧
      (r.holdNotice s.safeActive = none → t.portA = s.portA ∧ t.portB = s.portB) ∧
      t = { s with
        table := t.table, link := { s.link with queue := t.link.queue }, portA := t.portA, portB := t.portB } := by
  have he := r.sameEntry_holdExpired s.safeActive
  have hexpiry : s.holdTimerExpiry i =
      match r.holdNotice s.safeActive with
      | some n => (s.changeRecord i r (r.holdExpired s.safeActive)).notifyOwner r n
      | none => s.changeRecord i r (r.holdExpired s.safeActive) := by
    unfold State.holdTimerExpiry
    rw [hs]
    exact if_pos ⟨hheld, hcause, hrun⟩
  cases hn : r.holdNotice s.safeActive with
  | some n =>
    rw [hn] at hexpiry
    obtain ⟨t, ht, hbecomes, hnotice, hframe⟩ := State.changeRecord_notifyOwner_spec (s := s) (i := i) he ho n
    exact ⟨t, hexpiry.trans ht.symm, hbecomes, fun _ hm => Option.some.inj hm ▸ hnotice, nofun, hframe⟩
  | none =>
    rw [hn] at hexpiry
    obtain ⟨hbecomes, hframe⟩ := s.changeRecord_spec i r _ he.sequence he.publish he.tag
    generalize s.changeRecord i r (r.holdExpired s.safeActive) = t at *
    have hports : t.portA = s.portA ∧ t.portB = s.portB := by rw [hframe]; exact ⟨rfl, rfl⟩
    refine ⟨t, hexpiry, hbecomes, nofun, fun _ => hports, ?_⟩
    rw [hports.1, hports.2]
    exact hframe

/-- R110, refreshed with SAFE released. -/
theorem Record.holdExpired_of_refreshed_released (h : r.refreshed = some true) :
    r.holdExpired false = { r with
      state := .live, holdCause := none, refreshed := none, holdTimer := .stopped,
      countdown := countdownFor r.freshnessCode } ∧
      r.holdNotice false = some (.resumed r.tag) := by
  simp [Record.holdExpired, Record.holdNotice, h]

/-- R110, refreshed with SAFE active. -/
theorem Record.holdExpired_of_refreshed_active (h : r.refreshed = some true) :
    r.holdExpired true = { r with holdCause := some .safe, refreshed := none, holdTimer := .stopped } ∧
      r.holdNotice true = none := by
  simp [Record.holdExpired, Record.holdNotice, h]

/-- R110, not refreshed under hold policy RESUME. -/
theorem Record.holdExpired_of_resume (h : r.refreshed ≠ some true) (hp : r.holdPolicy = .resume) (a : Bool) :
    r.holdExpired a = { r with holdTimer := holdTimerFor r.holdPeriod } ∧ r.holdNotice a = none := by
  simp [Record.holdExpired, Record.holdNotice, h, hp]

/-- R110, not refreshed under hold policy LATCH. -/
theorem Record.holdExpired_of_latch (h : r.refreshed ≠ some true) (hp : r.holdPolicy = .latch) (a : Bool) :
    r.holdExpired a =
        { r with state := .latched, holdCause := none, refreshed := none, holdTimer := .stopped } ∧
      r.holdNotice a = some (.latched r.tag) := by
  simp [Record.holdExpired, Record.holdNotice, h, hp]

end

/-- Settles O35: the refreshed flag, with the SAFE level or the hold policy, picks the row of R110. -/
theorem holdTimerExpiryFollowsItsTable : Obligations.HoldTimerExpiryFollowsItsTable := by
  intro i s
  refine ⟨fun r w hs hheld hcause hrun ho => ?_,
    fun hnot => congrArg Host.Outcome.next (State.holdTimerExpiry_of_not_running hnot)⟩
  obtain ⟨t, ht, hbecomes, htold, huntold, hframe⟩ := State.holdTimerExpiry_spec hs hheld hcause hrun ho
  have row : ∀ {new : Record} {notice : Option Notice},
      r.holdExpired s.safeActive = new ∧ r.holdNotice s.safeActive = notice →
        s.OneRecordBecomes t i r new ∧ r.holdNotice s.safeActive = notice :=
    fun ⟨hnew, hnotice⟩ => ⟨hnew ▸ hbecomes, hnotice⟩
  refine ⟨t, congrArg Host.Outcome.next ht, fun hr hlevel => ?_, fun hr hlevel => ?_, fun hr hp => ?_,
    fun hr hp => ?_, hframe⟩
  · have hsafe : s.safeActive = false := by simp [State.safeActive, hlevel]
    exact (row (hsafe ▸ Record.holdExpired_of_refreshed_released hr)).imp_right (htold _)
  · have hsafe : s.safeActive = true := s.safeActive_iff.mpr hlevel
    exact (row (hsafe ▸ Record.holdExpired_of_refreshed_active hr)).imp_right huntold
  · exact (row (Record.holdExpired_of_resume hr hp _)).imp_right huntold
  · exact (row (Record.holdExpired_of_latch hr hp _)).imp_right (htold _)

/-! ### The SAFE filter (R115) -/

/-- Settles O31: the line's new level either opposes the filtered level or agrees with it. -/
theorem safeFilterMeasuresTheLine : Obligations.SafeFilterMeasuresTheLine := by
  intro high s
  refine ⟨fun hchange => ?_, fun hsame => congrArg Host.Outcome.next (if_pos hsame)⟩
  have hmove : exec (.safeNChange high) s = .next (s.safeNChange high) := rfl
  rw [hmove, State.safeNChange, if_neg hchange]
  cases hlevel : s.safe.level <;> cases high <;> simp [SafeState.opposed, stabilityStart, State.setSafe, hlevel]

end Sys2Proof.Machine

namespace Sys2Proof.Machine

/-! ### The send event (R128, R129) -/

section
variable {s : State} {e : Entry}

/-- R129, an UPDATE entry: the frame carries what the entry's record holds. -/
theorem latchFrame_update {r : Record} {v : Value} (hk : e.kind = .update) (hv : r.live = some v) (n : Nat)
    (number : Byte) :
    latchFrame n number e (.holding r) =
      { number := number, kind := .update, tag := r.tag, sequence := r.sequence, state := r.state.slotState,
        value := v } := by
  simp only [latchFrame, hk, hv, Option.getD_some]

/-- R129, a RETIRE entry: the frame carries what the VACATING slot keeps. -/
theorem latchFrame_retire (hk : e.kind = .retire) (n : Nat) (number : Byte) (tag sequence : Word16) :
    latchFrame n number e (.vacating tag sequence) =
      { number := number, kind := .retire, tag := tag, sequence := sequence, state := .vacating, value := 0 } := by
  simp only [latchFrame, hk]

theorem State.sendEvent_of_head {rest : List Entry} (hs : s.link.state = .idle) (hq : s.link.queue = e :: rest) :
    s.sendEvent = { s with
      choices := s.choices + 1
      link := { s.link with
        state := .sending, queue := rest
        inFlight := some
          { frame := latchFrame s.choices s.link.nextNumber e (s.slot e.slot), entry := e, retries := 0 }
        nextNumber := s.link.nextNumber + 1, noted := false
        transmission := transmissionAt s.link.settings.bitRate } } := by
  simp only [State.sendEvent, hs, hq]

theorem State.sendEvent_of_not_ready (h : s.link.state ≠ .idle ∨ s.link.queue = []) : s.sendEvent = s := by
  unfold State.sendEvent
  split
  next hs hq => simp [hs, hq] at h
  · rfl

end

/-- Settles O36: the head entry's kind says which of the two frames is latched. -/
theorem sendEventLatchesHeadEntry : Obligations.SendEventLatchesHeadEntry := by
  refine fun s => ⟨fun e rest frame hs hq hframe => ?_,
    fun h => congrArg Host.Outcome.next (State.sendEvent_of_not_ready h)⟩
  have hlatch : latchFrame s.choices s.link.nextNumber e (s.slot e.slot) = frame := by
    obtain ⟨r, v, hk, hr, hv, rfl⟩ | ⟨tag, sequence, hk, hx, rfl⟩ := hframe
    · rw [hr, latchFrame_update hk hv]
      cases r.state <;> rfl
    · rw [hx, latchFrame_retire hk]
  rw [← hlatch]
  exact congrArg Host.Outcome.next (State.sendEvent_of_head hs hq)

/-! ### The timers of the link (R131, R133) -/

section
variable {s : State} {f : InFlight}

theorem State.endOfTransmission_of_sending (hs : s.link.state = .sending) (hf : s.link.inFlight = some f) :
    s.endOfTransmission =
      if s.link.noted then s.completeFrame f
      else s.setLink { s.link with
        state := .awaitingAck, ackTimer := .running (quarterMs s.link.settings.timeoutCode)
        transmission := .stopped } := by
  simp only [State.endOfTransmission, hs, hf]

theorem State.endOfTransmission_of_not_sending (hs : s.link.state ≠ .sending) : s.endOfTransmission = s := by
  unfold State.endOfTransmission
  split
  next h _ => exact absurd h hs
  · rfl

theorem State.ackTimerExpiry_of_awaitingAck (hs : s.link.state = .awaitingAck) (hf : s.link.inFlight = some f) :
    s.ackTimerExpiry = s.failTransmission f := by
  simp only [State.ackTimerExpiry, hs, hf]

theorem State.ackTimerExpiry_of_not_awaitingAck (hs : s.link.state ≠ .awaitingAck) : s.ackTimerExpiry = s := by
  unfold State.ackTimerExpiry
  split
  next h _ => exact absurd h hs
  · rfl

end

/-- Settles O37: each event is the completion or the failure that `State.completeFrame_spec` and
`State.failTransmission_spec` describe, or starts the acknowledgement timer. -/
theorem linkTimersMoveTheFrame : Obligations.LinkTimersMoveTheFrame := by
  refine fun s => ⟨fun f hs hf hn => ?_, fun f hs hf hn => ⟨_, ?_, s.completeFrame_spec f⟩,
    fun hs => congrArg Host.Outcome.next (State.endOfTransmission_of_not_sending hs),
    fun f hs hf => ⟨_, congrArg Host.Outcome.next (State.ackTimerExpiry_of_awaitingAck hs hf),
      s.failTransmission_spec f⟩,
    fun hs => congrArg Host.Outcome.next (State.ackTimerExpiry_of_not_awaitingAck hs)⟩
  · exact congrArg Host.Outcome.next <| (State.endOfTransmission_of_sending hs hf).trans (if_neg (by simp [hn]))
  · exact congrArg Host.Outcome.next <| (State.endOfTransmission_of_sending hs hf).trans (if_pos hn)

/-! ### The judgement of an acknowledgement (R134) -/

section
variable {s : State} {f : InFlight} {kind number : Byte}

theorem State.judgeAck_of_otherNumber (hf : s.link.inFlight = some f) (hn : f.frame.number ≠ number) :
    s.judgeAck kind number = s := by
  simp only [State.judgeAck, hf, if_pos hn]

theorem State.judgeAck_awaitingAck (hf : s.link.inFlight = some f) (hs : s.link.state = .awaitingAck) :
    s.judgeAck kind f.frame.number =
      if kind = ackByte then s.completeFrame f else if kind = nakByte then s.failTransmission f else s := by
  simp only [State.judgeAck, hf, hs, ne_eq, not_true_eq_false, if_false]

theorem State.judgeAck_sending (hf : s.link.inFlight = some f) (hs : s.link.state = .sending) :
    s.judgeAck kind f.frame.number =
      if f.retries ≠ 0 ∧ kind = ackByte then s.setLink { s.link with noted := true } else s := by
  simp only [State.judgeAck, hf, hs, ne_eq, not_true_eq_false, if_false]

/-- A kind byte that is neither of the two is dropped in every link state. -/
theorem State.judgeAck_of_otherKind (hk : kind ≠ ackByte ∧ kind ≠ nakByte) : s.judgeAck kind number = s := by
  obtain ⟨hack, hnak⟩ := hk
  unfold State.judgeAck
  split
  · rfl
  · split
    · rfl
    · split
      · rfl
      · exact if_neg fun ⟨_, hkind⟩ => hack hkind
      · rfl

theorem State.judgeAck_of_not_underway (hs : s.link.state ≠ .sending ∧ s.link.state ≠ .awaitingAck) :
    s.judgeAck kind number = s := by
  obtain ⟨hsending, hawaiting⟩ := hs
  unfold State.judgeAck
  split
  · rfl
  · split
    · rfl
    · split
      next h => exact absurd h hawaiting
      next h => exact absurd h hsending
      · rfl

theorem State.acknowledgement_of_enabled (hs : s.link.state ≠ .off) :
    s.acknowledgement kind number = (s.setOpenByte none).judgeAck kind number :=
  if_neg hs

end

/-- Settles O38: on an enabled link the judgement, after the open byte is dropped, decides. -/
theorem acknowledgementsAreJudged : Obligations.AcknowledgementsAreJudged := by
  intro s u
  have judged : ∀ {kind number t}, s.link.state ≠ .off → u.judgeAck kind number = t →
      exec (.acknowledgement kind number) s = .next t := fun hs ht =>
    congrArg Host.Outcome.next ((State.acknowledgement_of_enabled hs).trans ht)
  refine ⟨fun f hf hs => ?_, fun f hf hs => ?_, fun f kind number hf hs hother => ?_, fun hs kind number => ?_,
    fun hs kind number => ?_⟩
  · have hon : s.link.state ≠ .off := by simp [hs]
    have hrow := fun kind => State.judgeAck_awaitingAck (s := u) (kind := kind) hf hs
    exact ⟨⟨_, judged hon (hrow 0x06), u.completeFrame_spec f⟩, _, judged hon (hrow 0x15), u.failTransmission_spec f⟩
  · have hon : s.link.state ≠ .off := by simp [hs]
    have hrow := fun kind => State.judgeAck_sending (s := u) (kind := kind) hf hs
    exact ⟨fun hr => judged hon ((hrow _).trans (if_neg fun h => h.1 hr)),
      fun hr => judged hon ((hrow _).trans (if_pos ⟨hr, rfl⟩)),
      judged hon ((hrow _).trans (if_neg fun h => absurd h.2 (by decide)))⟩
  · have hon : s.link.state ≠ .off := by rcases hs with hs | hs <;> simp [hs]
    rcases hother with hn | hk
    · exact judged hon (State.judgeAck_of_otherNumber (s := u) hf hn)
    · exact judged hon (State.judgeAck_of_otherKind hk)
  · exact congrArg Host.Outcome.next (if_pos hs)
  · refine judged (by rcases hs with hs | hs <;> simp [hs]) (State.judgeAck_of_not_underway ?_)
    change s.link.state ≠ _ ∧ s.link.state ≠ _
    rcases hs with hs | hs <;> simp [hs]

end Sys2Proof.Machine

namespace Sys2Proof.Machine

/-! ### The slots a LINK_FLUSH frees (R139) -/

theorem State.isVacating_of_mem_retiringSlots {s : State} {i : SlotNo} (h : i ∈ s.retiringSlots) :
    (s.slot i).isVacating = true := by
  obtain ⟨-, htest⟩ := List.mem_filter.mp h
  exact (Bool.and_eq_true_iff.mp htest).1

/-- LINK_FLUSH: the waiting slots are FREE, the counts move by their number, and the queue is empty (R139). -/
theorem State.flush_spec (s : State) :
    (∀ i, s.flush.slot i = if i ∈ s.retiringSlots then .free else s.slot i) ∧
      s.flush = { s with
        table := s.flush.table, freeCount := s.freeCount + s.retiringSlots.length
        vacatingCount := s.vacatingCount - s.retiringSlots.length, link := { s.link with queue := [] } } := by
  obtain ⟨hslot, hframe⟩ := State.foldl_freeSlot s.retiringSlots (allSlots_nodup.filter _) s
  rw [List.filter_eq_self.mpr fun _ => State.isVacating_of_mem_retiringSlots] at hframe
  have hfreed : ∀ i, i ∈ s.retiringSlots ∧ (s.slot i).isVacating = true ↔ i ∈ s.retiringSlots := fun _ =>
    and_iff_left_of_imp State.isVacating_of_mem_retiringSlots
  refine ⟨fun i => (hslot i).trans (if_congr (hfreed i) rfl rfl), ?_⟩
  unfold State.flush
  generalize s.retiringSlots.foldl State.freeSlot s = t at *
  rw [hframe]
  rfl

/-! ### LINK_START, LINK_FLUSH and RESYNC accepted (R138, R139, R141) -/

section
variable {p : PortId} {w : WriterNo} {s : State}
variable (hw : s.speaks p w) (hright : (s.profile w).rights.getLsbD 5 = true)
include hw hright

/-- The operations with the right LINK differ only in the link state they ask for and in what they do. -/
theorem admitted_link {c : Prop} [Decidable c] (hc : c) (next : Applied) :
    admitted p w s (require ((s.profile w).holds .link) .noRight s (require c .linkState s next)) = next := by
  have hholds : (s.profile w).holds .link = true := hright
  rw [admitted_of_speaks hw, require_of _ _ _ _ hholds, require_of _ _ _ _ hc]

theorem exec_linkStart (hs : s.link.state = .down) :
    exec (.linkStart p w) s = .next { s with
      link := { s.link with state := .idle }
      result := some { status := .ok, data := .entries s.link.queue.length } } :=
  exec_of_applyOp (op := .linkStart) rfl (admitted_link hw hright hs _)

theorem exec_linkFlush (hs : s.link.state ≠ .off) :
    exec (.linkFlush p w) s = .next
      (answered (accept (.flushed s.link.queue.length s.retiringSlots.length) s.flush)) :=
  exec_of_applyOp (op := .linkFlush) rfl (admitted_link hw hright hs _)

theorem exec_resync (hs : s.link.state ≠ .off) :
    exec (.resync p w) s = .next { s with
      link := { s.link with queue := s.link.queue ++ s.resyncEntries }
      result := some { status := .ok, data := .entries s.resyncEntries.length } } :=
  exec_of_applyOp (op := .resync) rfl (admitted_link hw hright hs _)

end

/-- No pending entry of a slot, said of each entry of the queue. -/
theorem State.pendingAt_eq_false_iff (s : State) (i : SlotNo) :
    s.pendingAt i = false ↔ s.link.queue.all (fun e => e.slot != i) = true := by
  simp [State.pendingAt]

/-- Settles O40: LINK_FLUSH by `State.flush_spec`; the entries RESYNC adds, slot by slot. -/
theorem linkStartFlushAndResync : Obligations.LinkStartFlushAndResync := by
  refine fun p w s hw hright => ⟨exec_linkStart hw hright, fun hs => ?_, fun hs => ?_⟩
  · obtain ⟨hslot, hframe⟩ := s.flush_spec
    refine ⟨_, exec_linkFlush hw hright hs, hslot, ?_⟩
    unfold answered accept
    generalize s.flush = t at *
    rw [hframe]
    rfl
  · intro added
    have hadded : s.resyncEntries = added := by
      refine (List.filterMap_eq_flatMap_toList _ _).trans (List.flatMap_congr fun i _ => ?_)
      unfold State.resyncEntry
      cases s.slot i with
      | free => rfl
      | vacating => rfl
      | holding r =>
        simp only [State.pendingAt_eq_false_iff]
        split <;> rfl
    rw [← hadded]
    exact exec_resync hw hright hs

/-! ### SET_LINK accepted (R142, R143, R144) -/

theorem bitRate?_code (x : BitRate) : bitRate? x.code = some x := by
  cases x <;> rfl

/-- Settings written and read back (10.3). -/
theorem linkSettings?_encoded {new : LinkSettings} (hlow : 1 ≤ new.timeoutCode) (hhigh : new.timeoutCode ≤ 15)
    (hretry : new.retryLimit ≤ 7) :
    linkSettings? (BitVec.ofNat 8 new.enable.toNat) new.bitRate.code (BitVec.ofNat 8 new.timeoutCode)
      (BitVec.ofNat 8 new.retryLimit) = some new := by
  have ht : (BitVec.ofNat 8 new.timeoutCode).toNat = new.timeoutCode := by rw [BitVec.toNat_ofNat]; omega
  have hr : (BitVec.ofNat 8 new.retryLimit).toNat = new.retryLimit := by rw [BitVec.toNat_ofNat]; omega
  simp only [linkSettings?, yesNo?_ofNat, bitRate?_code, ht, hr, if_pos (And.intro hlow (And.intro hhigh hretry))]

section
variable {s : State} {new : LinkSettings}

theorem State.applyLinkSettings_enables (hs : s.link.state = .off) (hn : new.enable = true) :
    s.applyLinkSettings new =
      s.setLink { s.link with settings := new, state := .idle, queue := [], inFlight := none, nextNumber := 0 } :=
  (if_pos hs).trans (if_pos hn)

/-- A SET_LINK that asks for what the link is already replaces the settings alone (R142). -/
theorem State.applyLinkSettings_keeps (h : s.link.state = .off ↔ new.enable = false) :
    s.applyLinkSettings new = s.setLink { s.link with settings := new } := by
  by_cases hs : s.link.state = .off
  · exact (if_pos hs).trans (if_neg (by simp [h.mp hs]))
  · exact (if_neg hs).trans (if_pos (by simpa using mt h.mpr hs))

/-- Disabling under new settings frees every VACATING slot and leaves the link OFF with nothing under way (R144). -/
theorem State.applyLinkSettings_disables (hs : s.link.state ≠ .off) (hn : new.enable = false) :
    (∀ i, (s.applyLinkSettings new).slot i = if (s.slot i).isVacating then .free else s.slot i) ∧
      s.applyLinkSettings new = { s with
        table := (s.applyLinkSettings new).table
        freeCount := s.freeCount + (allSlots.filter fun i => (s.slot i).isVacating).length
        vacatingCount := s.vacatingCount - (allSlots.filter fun i => (s.slot i).isVacating).length
        link := { s.link with
          settings := new, state := .off, queue := [], inFlight := none, noted := false, ackTimer := .stopped
          transmission := .stopped, openByte := none } } := by
  have hdisable : s.applyLinkSettings new = (s.setLink { s.link with settings := new }).disableLink :=
    (if_neg hs).trans (if_neg (by simp [hn]))
  obtain ⟨hslot, hframe⟩ := State.foldl_freeSlot allSlots allSlots_nodup s
  rw [hdisable, State.disableLink_setLink]
  generalize allSlots.foldl State.freeSlot s = t at *
  refine ⟨fun i => ?_, ?_⟩
  · simpa [mem_allSlots] using hslot i
  · rw [hframe]
    rfl

end

/-- Writer 0's settings in range are applied, and the result names the link state they lead to. -/
theorem opSetLink_of_range {p : PortId} {new : LinkSettings} {s : State} (hw : s.speaks p 0)
    (hlow : 1 ≤ new.timeoutCode) (hhigh : new.timeoutCode ≤ 15) (hretry : new.retryLimit ≤ 7) :
    opSetLink p 0 (BitVec.ofNat 8 new.enable.toNat) new.bitRate.code (BitVec.ofNat 8 new.timeoutCode)
        (BitVec.ofNat 8 new.retryLimit) s =
      accept (.previousLink s.link.settings (s.applyLinkSettings new).link.state) (s.applyLinkSettings new) := by
  unfold opSetLink
  rw [admitted_of_speaks hw, require_of _ _ _ _ rfl, linkSettings?_encoded hlow hhigh hretry]

/-- TXP is high while no frame is in flight (R175). -/
theorem Link.txp_of_no_frame {x : Link} (h : x.inFlight = none) : x.txp = true := by
  simp only [Link.txp, h]

/-- Settles O41: what the settings ask for and what the link is pick enabling, keeping or disabling. -/
theorem setLinkEnablesAndDisables : Obligations.SetLinkEnablesAndDisables := by
  intro p new s hw hlow hhigh hretry command
  have applied : ∀ {t : State} {after : LinkState}, s.applyLinkSettings new = t → t.link.state = after →
      exec command s = .next (answered (accept (.previousLink s.link.settings after) t)) := by
    rintro _ _ rfl rfl
    exact exec_of_applyOp (op := .setLink ..) rfl (opSetLink_of_range hw hlow hhigh hretry)
  refine ⟨fun hs hn => applied (State.applyLinkSettings_enables hs hn) rfl,
    fun hs hn => applied (State.applyLinkSettings_keeps (by simp [hs, hn])) hs,
    fun hs hn => applied (State.applyLinkSettings_keeps (by simp [hs, hn])) rfl, fun hs hn => ?_⟩
  obtain ⟨hslot, hframe⟩ := State.applyLinkSettings_disables hs hn
  have hexec := applied (after := .off) rfl (by rw [hframe])
  generalize s.applyLinkSettings new = t at *
  refine ⟨_, hexec, hslot, ?_, Link.txp_of_no_frame ?_⟩
  · unfold answered accept
    rw [hframe]
  · change t.link.inFlight = none
    rw [hframe]

end Sys2Proof.Machine

namespace Sys2Proof.Machine

/-! ### The law of one port (R147, R159, R163, R167) -/

/-- R147, R159, R163, R167 for a port to which the writers of `bound` are bound. -/
structure Port.Lawful (x : Port) (bound : WriterNo → Prop) : Prop where
  notices : x.notices.length ≤ 32
  interval : x.breakInterval ≠ .stopped → x.transaction ≠ .inactive
  breaking : x.service = .breaking → x.breakInterval = .stopped
  cursor : ∀ c, x.cursor = some c → c.nextSlot < 256 ∧ bound c.writer

theorem State.portLaw_iff (s : State) (p : PortId) : s.portLaw p ↔ (s.port p).Lawful (s.speaks p) :=
  ⟨fun ⟨hn, hi, hb, hc⟩ => ⟨hn, hi, hb, hc⟩, fun ⟨hn, hi, hb, hc⟩ => ⟨hn, hi, hb, hc⟩⟩

section
variable {x : Port} {bound : WriterNo → Prop}

theorem Port.Lawful.notify (h : x.Lawful bound) (n : Notice) : (x.notify n).Lawful bound := by
  unfold Port.notify
  split
  next hl => exact ⟨by simpa using hl, h.interval, h.breaking, h.cursor⟩
  · exact ⟨h.notices, h.interval, h.breaking, h.cursor⟩

/-- The interval restarts only with select active, and not while a break is carried out (R159). -/
theorem Port.Lawful.restartBreak (h : x.Lawful bound) {transaction : Transaction} (ht : transaction ≠ .inactive) :
    ({ x with transaction := transaction } : Port).restartBreak.Lawful bound := by
  unfold Port.restartBreak
  split
  · exact ⟨h.notices, fun _ => ht, h.breaking, h.cursor⟩
  next hs => exact ⟨h.notices, fun _ => ht, fun hb => absurd hb hs, h.cursor⟩

theorem Port.Lawful.releaseSelect (h : x.Lawful bound) : x.releaseSelect.Lawful bound :=
  ⟨h.notices, fun hi => absurd rfl hi, fun _ => rfl, h.cursor⟩

theorem Port.Lawful.receive (h : x.Lawful bound) (bytes : List Byte) : (x.receive bytes).Lawful bound := by
  unfold Port.receive
  split
  · exact ⟨h.notices, h.interval, nofun, h.cursor⟩
  · exact ⟨h.notices, h.interval, h.breaking, h.cursor⟩

theorem Port.Lawful.complete (h : x.Lawful bound) (f : TakenFrame) (status : FrameStatus) (results : List OpResult) :
    (x.complete f status results).Lawful bound :=
  ⟨h.notices, h.interval, nofun, h.cursor⟩

theorem Port.Lawful.completeOk (h : x.Lawful bound) (f : TakenFrame) (results : List OpResult) :
    (x.completeOk f results).Lawful bound :=
  ⟨h.notices, h.interval, nofun, h.cursor⟩

theorem Port.Lawful.markRead (h : x.Lawful bound) : x.markRead.Lawful bound :=
  ⟨h.notices, h.interval, h.breaking, h.cursor⟩

theorem Port.Lawful.startBreak (h : x.Lawful bound) : x.startBreak.Lawful bound :=
  ⟨h.notices, fun hi => absurd rfl hi, fun _ => rfl, h.cursor⟩

theorem Port.Lawful.endBreak (h : x.Lawful bound) : x.endBreak.Lawful bound :=
  ⟨Nat.zero_le _, h.interval, nofun, nofun⟩

theorem Port.Lawful.setCursor (h : x.Lawful bound) {cursor : Option Cursor}
    (hc : ∀ c, cursor = some c → c.nextSlot < 256 ∧ bound c.writer) :
    ({ x with cursor := cursor } : Port).Lawful bound :=
  ⟨h.notices, h.interval, h.breaking, hc⟩

theorem Port.Lawful.closeCursor (h : x.Lawful bound) : ({ x with cursor := none } : Port).Lawful bound :=
  h.setCursor nofun

/-- Notices leave the queue by a POLL (R165). -/
theorem Port.Lawful.poll (h : x.Lawful bound) :
    ({ x with notices := x.notices.drop 8, noticeOverflow := false } : Port).Lawful bound := by
  have fewer : (x.notices.drop 8).length ≤ x.notices.length := by simp
  exact ⟨fewer.trans h.notices, h.interval, h.breaking, h.cursor⟩

theorem Port.Lawful.tick (h : x.Lawful bound) :
    ({ x with breakInterval := x.breakInterval.tick } : Port).Lawful bound := by
  have hstop := Timer.tick_eq_stopped x.breakInterval
  exact ⟨h.notices, fun hi => h.interval (mt hstop.mpr hi), fun hb => hstop.mpr (h.breaking hb), h.cursor⟩

theorem Port.lawful_reset : Port.reset.Lawful bound :=
  ⟨Nat.zero_le _, fun hi => absurd rfl hi, nofun, nofun⟩

/-- A reset with select active starts the interval, and no break is under way then (R162). -/
theorem Port.lawful_afterReset (x : Port) : x.afterReset.Lawful bound := by
  unfold Port.afterReset
  split
  · exact Port.lawful_reset
  · exact ⟨Nat.zero_le _, nofun, nofun, nofun⟩

/-- The law reads only which writers have the cursor open. -/
theorem Port.Lawful.rebind (h : x.Lawful bound) {bound' : WriterNo → Prop}
    (hb : ∀ c, x.cursor = some c → bound c.writer → bound' c.writer) : x.Lawful bound' :=
  ⟨h.notices, h.interval, h.breaking, fun c hc => ⟨(h.cursor c hc).1, hb c hc (h.cursor c hc).2⟩⟩

end

/-! ### What follows from a part -/

/-- The laws of both ports. -/
def State.portLaws (s : State) : Prop :=
  ∀ p, s.portLaw p

/-- What every event of the part `o` leaves: the waiting commands as they were, and the laws of the ports where they
held. -/
structure State.Leaves (o s : State) : Prop where
  pending : s.pending = o.pending
  laws : o.portLaws → s.portLaws

theorem State.leaves_refl (s : State) : s.Leaves s :=
  ⟨rfl, id⟩

abbrev KeepsPorts (o : State) : State → State → Prop :=
  Keeps o.Leaves

section
variable {o s t : State}

theorem KeepsPorts.of_laws (pending : t.pending = s.pending) (laws : s.portLaws → t.portLaws) : KeepsPorts o s t :=
  ⟨fun h => ⟨pending.trans h.pending, fun ho => laws (h.laws ho)⟩⟩

/-- The laws of the ports read the ports and the bindings. -/
theorem KeepsPorts.elsewhere (ports : t.port = s.port) (bindings : ∀ w, (t.writer w).binding = (s.writer w).binding)
    (pending : t.pending = s.pending) : KeepsPorts o s t :=
  .of_laws pending fun h p => by simpa only [State.portLaw, ports, bindings] using h p

theorem KeepsPorts.setPort {p : PortId} {x : Port} (hx : (s.port p).Lawful (s.speaks p) → x.Lawful (s.speaks p)) :
    KeepsPorts o s (s.setPort p x) := by
  refine .of_laws (by simp) fun h q => (State.portLaw_iff _ q).mpr ?_
  have speaks : (s.setPort p x).speaks q = s.speaks q := by funext w; simp [State.speaks]
  rw [speaks, State.port_setPort]
  split
  next hpq => exact hpq ▸ hx ((s.portLaw_iff p).mp (h p))
  · exact (s.portLaw_iff q).mp (h q)

/-- The records dropped leave every binding (R33). -/
theorem KeepsPorts.of_drops {l : List SlotNo} {gone : Record → Bool} {row : Record → Record}
    (h : s.Drops t l gone row) : KeepsPorts o s t :=
  .elsewhere (by rw [h.rest]; rfl) (fun w => by rw [h.writers]) (by rw [h.rest])

end

/-! ### The shared operations -/

section
variable {o : State} (s : State)

theorem KeepsPorts.setSlot (i : SlotNo) (x : Slot) : KeepsPorts o s (s.setSlot i x) :=
  .elsewhere rfl (fun _ => rfl) rfl

theorem KeepsPorts.setLink (x : Link) : KeepsPorts o s (s.setLink x) :=
  .elsewhere rfl (fun _ => rfl) rfl

theorem KeepsPorts.setSafe (x : SafeState) : KeepsPorts o s (s.setSafe x) :=
  .elsewhere rfl (fun _ => rfl) rfl

theorem KeepsPorts.setProfile (w : WriterNo) (x : Profile) : KeepsPorts o s (s.setProfile w x) :=
  .elsewhere rfl (fun _ => rfl) rfl

theorem KeepsPorts.setGroupEntry (g : GroupNo) (x : GroupEntry) : KeepsPorts o s (s.setGroupEntry g x) :=
  .elsewhere rfl (fun _ => rfl) rfl

theorem KeepsPorts.setTrigger (l : TriggerLine) (x : TriggerEntry) : KeepsPorts o s (s.setTrigger l x) := by
  cases l <;> exact .elsewhere rfl (fun _ => rfl) rfl

theorem KeepsPorts.setRxp (r : Option Reception) : KeepsPorts o s { s with rxp := r } :=
  .elsewhere rfl (fun _ => rfl) rfl

theorem KeepsPorts.setChoices (n : Nat) : KeepsPorts o s { s with choices := n } :=
  .elsewhere rfl (fun _ => rfl) rfl

theorem KeepsPorts.answered (a : Applied) : KeepsPorts o a.2 (answered a) :=
  .elsewhere rfl (fun _ => rfl) rfl

theorem KeepsPorts.freeSlot (i : SlotNo) : KeepsPorts o s (s.freeSlot i) :=
  .elsewhere (by rw [State.freeSlot_eq]; rfl) (fun _ => by rw [State.freeSlot_eq]; rfl) (by rw [State.freeSlot_eq])

theorem KeepsPorts.addRecord (i : SlotNo) (r : Record) : KeepsPorts o s (s.addRecord i r) :=
  .elsewhere rfl (fun _ => rfl) rfl

/-- An owned count moves, and no binding does (R33). -/
theorem KeepsPorts.setOwned (w : WriterNo) (n : Nat) :
    KeepsPorts o s (s.setWriter w { s.writer w with ownedCount := n }) := by
  refine .elsewhere rfl (fun v => ?_) rfl
  rw [State.writer_setWriter]
  split
  next hwv => rw [← hwv]
  · rfl

theorem KeepsPorts.notifyPort (p : PortId) (n : Notice) : KeepsPorts o s (s.notifyPort p n) :=
  .setPort fun h => h.notify n

theorem KeepsPorts.notifyWriter (w : WriterNo) (n : Notice) : KeepsPorts o s (s.notifyWriter w n) := by
  unfold State.notifyWriter
  split
  · exact KeepsPorts.notifyPort ..
  · exact .refl

theorem KeepsPorts.notifyOwner (r : Record) (n : Notice) : KeepsPorts o s (s.notifyOwner r n) := by
  unfold State.notifyOwner
  split
  · exact KeepsPorts.notifyWriter ..
  · exact .refl

theorem KeepsPorts.notifyBoth (n : Notice) : KeepsPorts o s (s.notifyBoth n) :=
  (KeepsPorts.notifyPort s .a n).trans (KeepsPorts.notifyPort _ .b n)

theorem KeepsPorts.closeCursor (p : PortId) : KeepsPorts o s (s.closeCursor p) :=
  .setPort Port.Lawful.closeCursor

theorem KeepsPorts.handUpdate (i : SlotNo) (tag : Word16) : KeepsPorts o s (s.handUpdate i tag) := by
  unfold State.handUpdate
  split
  · exact .refl
  · exact KeepsPorts.setLink ..

theorem KeepsPorts.changeRecord (i : SlotNo) (old new : Record) : KeepsPorts o s (s.changeRecord i old new) := by
  unfold State.changeRecord
  split
  · exact KeepsPorts.setSlot ..
  · dsimp only
    split
    · exact (KeepsPorts.setSlot ..).trans (KeepsPorts.handUpdate ..)
    · exact KeepsPorts.setSlot ..

section
variable {s} {i : SlotNo} {r : Record} (hs : s.slot i = .holding r)
include hs

theorem KeepsPorts.loseOwner : KeepsPorts o s (s.loseOwner i r) := by
  have h := KeepsPorts.of_drops (o := o) (s.loseOwnerAt_drops i)
  rwa [State.loseOwnerAt, hs] at h

theorem KeepsPorts.retireRecord : KeepsPorts o s (s.retireRecord i r) := by
  have h := KeepsPorts.of_drops (o := o) (s.retireSlot_drops i id)
  rwa [State.retireSlot, hs] at h

end

theorem KeepsPorts.clearTable : KeepsPorts o s s.clearTable :=
  (KeepsPorts.of_drops (s.retireSlots_drops id s.indexedSlots (allSlots_nodup.filter _))).trans <|
    (KeepsPorts.closeCursor _ .a).trans (KeepsPorts.closeCursor _ .b)

/-- A writer that becomes VACANT has its cursor closed, at the port it was bound to (R38). -/
theorem State.Dismisses.keepsPortLaws {s t : State} {w : WriterNo} (h : s.Dismisses t w) (hs : s.portLaws) :
    t.portLaws := by
  obtain ⟨-, -, -, -, -, -, hothers, hports, -⟩ := h
  intro p
  have lawful := (s.portLaw_iff p).mp (hs p)
  rw [State.portLaw_iff, hports p]
  split
  · exact lawful.closeCursor.rebind nofun
  next hopen =>
    refine lawful.rebind fun c hc hbound => ?_
    have hother : c.writer ≠ w := fun hw => hopen ⟨hw ▸ hbound, by simp [hc, hw]⟩
    rwa [State.speaks, hothers _ hother]

theorem KeepsPorts.dismissWriter (w : WriterNo) : KeepsPorts o s (s.dismissWriter w) := by
  have h := s.dismissWriter_spec w
  refine .of_laws ?_ h.keepsPortLaws
  obtain ⟨-, -, -, -, -, -, -, -, frame⟩ := h
  rw [frame]

/-- A VACANT writer has no cursor open, so that its binding breaks no law (R35). -/
theorem KeepsPorts.bind {s : State} {w : WriterNo} (hw : (s.writer w).binding = none) (p : PortId) :
    KeepsPorts o s (s.setWriter w { s.writer w with binding := some p }) := by
  refine .of_laws rfl fun h q => (State.portLaw_iff _ q).mpr ?_
  refine ((s.portLaw_iff q).mp (h q)).rebind fun c _ hbound => ?_
  have hne : w ≠ c.writer := fun he => by simp [State.speaks, ← he, hw] at hbound
  rwa [State.speaks, State.writer_setWriter, if_neg hne]

theorem KeepsPorts.claimUnowned (i : SlotNo) (r : Record) (w : WriterNo) (prec : Nat) :
    KeepsPorts o s (s.claimUnowned i r w prec) :=
  (KeepsPorts.setOwned ..).trans (KeepsPorts.changeRecord ..)

theorem KeepsPorts.takeOver (i : SlotNo) (r : Record) (old w : WriterNo) (prec : Nat) :
    KeepsPorts o s (s.takeOver i r old w prec) :=
  (KeepsPorts.setOwned s old _).trans <| (KeepsPorts.setOwned _ w _).trans <|
    (KeepsPorts.changeRecord _ i r (r.takenOver w prec)).trans (KeepsPorts.notifyWriter ..)

theorem KeepsPorts.commit (target : CommitTarget) : KeepsPorts o s (s.commit target) := by
  obtain ⟨-, -, frame⟩ := s.commit_spec target
  exact .elsewhere (by rw [frame]; rfl) (fun _ => by rw [frame]; rfl) (by rw [frame])

theorem KeepsPorts.freeSlots (l : List SlotNo) : KeepsPorts o s (l.foldl State.freeSlot s) :=
  .foldl KeepsPorts.freeSlot l

theorem KeepsPorts.applyLinkSettings (new : LinkSettings) : KeepsPorts o s (s.applyLinkSettings new) := by
  have configured : KeepsPorts o s (s.setLink { s.link with settings := new }) := KeepsPorts.setLink ..
  unfold State.applyLinkSettings
  dsimp only
  split
  · split
    · exact configured.trans (KeepsPorts.setLink ..)
    · exact configured
  · split
    · exact configured
    · exact configured.trans <| (KeepsPorts.freeSlots _ allSlots).trans (KeepsPorts.setLink ..)

/-! ### Scans (R167, R169) -/

theorem nextAfter_le (found : List ShortView) : nextAfter found ≤ 256 := by
  unfold nextAfter
  split
  next v _ => exact v.slot.isLt
  · exact Nat.le_refl _

/-- A walk leaves the cursor below slot 256, or closed. -/
theorem KeepsPorts.walk {s : State} {p : PortId} {c : Cursor}
    (hc : (s.port p).Lawful (s.speaks p) → s.speaks p c.writer) : KeepsPorts o s (walk p c s).2 := by
  refine .setPort fun h => h.setCursor fun after hafter => ?_
  split at hafter
  · cases hafter
  next hnext =>
    cases hafter
    exact ⟨Nat.lt_of_le_of_ne (nextAfter_le _) hnext, hc h⟩

end

end Sys2Proof.Machine

namespace Sys2Proof.Machine

/-! ### Every operation keeps the laws of the ports -/

section
variable {o : State} (p : PortId) (w : WriterNo) (s : State)

theorem KeepsPorts.opClaim (tag : Word16) (precedence : Byte) :
    KeepsPorts o s (opClaim p w tag precedence s).2 := by
  refine .admitted fun _ => .require fun _ => .require fun _ => .require fun _ => .onRecord fun i r _ => ?_
  split
  · exact .require fun _ => KeepsPorts.claimUnowned ..
  · split
    · exact KeepsPorts.changeRecord ..
    · split
      · exact .refl
      · split
        · exact .refl
        · exact .require fun _ => KeepsPorts.takeOver ..

theorem KeepsPorts.opCreate (tag : Word16) (group : Byte) (lower upper fallback : Value) (clamp publish : Byte)
    (freshness : Word16) (holdPolicy holdPeriod orphan : Byte) :
    KeepsPorts o s
      (opCreate p w tag group lower upper fallback clamp publish freshness holdPolicy holdPeriod orphan s).2 := by
  refine .admitted fun _ => .require fun _ => ?_
  split
  · exact .refl
  · refine .require fun _ => .require fun _ => ?_
    split
    · exact .refl
    · exact KeepsPorts.addRecord ..

theorem KeepsPorts.opSetLimits (tag : Word16) (lower upper : Value) :
    KeepsPorts o s (opSetLimits p w tag lower upper s).2 := by
  refine .onShaped fun i r _ => ?_
  dsimp only
  split
  · exact .refl
  · exact KeepsPorts.changeRecord ..

theorem KeepsPorts.opCommit (group : Byte) : KeepsPorts o s (opCommit p w group s).2 := by
  refine .admitted fun _ => .require fun _ => ?_
  split
  · exact .refl
  · split
    · exact KeepsPorts.setSafe ..
    · exact KeepsPorts.commit ..

/-- The cursor a SCAN opens is its caller's, who is bound to the port (R168). -/
theorem KeepsPorts.opScan (stateSet owner group : Byte) : KeepsPorts o s (opScan p w stateSet owner group s).2 := by
  refine .admitted fun hw => ?_
  split
  · exact .refl
  · exact KeepsPorts.walk fun _ => hw

theorem KeepsPorts.opScanNext : KeepsPorts o s (opScanNext p w s).2 := by
  refine .admitted fun _ => ?_
  split
  · exact .refl
  next c hc => exact .require fun _ => KeepsPorts.walk fun h => (h.cursor c hc).2

end

theorem KeepsPorts.applyOp {o : State} (p : PortId) (w : WriterNo) (op : Op) (s : State) :
    KeepsPorts o s (applyOp p w op s).2 := by
  cases op with
  | admitWriter => exact .require fun hw => KeepsPorts.bind hw p
  | dismiss =>
    refine .admitted fun _ => .require fun _ => ?_
    split
    · exact .refl
    · exact .require fun _ => KeepsPorts.dismissWriter ..
  | setProfile =>
    refine .admitted fun _ => .require fun _ => ?_
    split
    · exact .require fun _ => .require fun _ => KeepsPorts.setProfile ..
    · exact .refl
  | readProfile =>
    refine .admitted fun _ => ?_
    split <;> exact .refl
  | create => exact KeepsPorts.opCreate ..
  | retire =>
    exact .admitted fun _ => .require fun _ => .require fun _ => .onRecord fun _ _ hs => .require fun _ =>
      KeepsPorts.retireRecord hs
  | read => exact .admitted fun _ => .require fun _ => .onRecord fun _ _ _ => .refl
  | claim => exact KeepsPorts.opClaim ..
  | release =>
    exact .admitted fun _ => .require fun _ => .onRecord fun _ _ hs => .require fun _ => KeepsPorts.loseOwner hs
  | stage =>
    refine .onOwned fun _ _ _ _ => ?_
    split
    · exact .refl
    · exact KeepsPorts.changeRecord ..
  | touch => exact .onOwned fun _ _ _ _ => KeepsPorts.changeRecord ..
  | unlatch => exact .onOwned fun _ _ _ _ => .require fun _ => KeepsPorts.changeRecord ..
  | setLimits => exact KeepsPorts.opSetLimits ..
  | setFallback => exact .onShaped fun _ _ _ => .require fun _ => KeepsPorts.changeRecord ..
  | setSupervision =>
    unfold Machine.applyOp opSetSupervision
    dsimp only
    split
    · exact .onShaped fun _ _ _ => .refl
    · exact .onShaped fun _ _ _ => KeepsPorts.changeRecord ..
  | setGroup =>
    unfold Machine.applyOp opSetGroup
    dsimp only
    split
    · exact .onShaped fun _ _ _ => .refl
    · exact .onShaped fun _ _ _ => KeepsPorts.changeRecord ..
  | commit => exact KeepsPorts.opCommit ..
  | setCycle =>
    refine .admitted fun _ => .require fun _ => ?_
    split
    · exact .refl
    · exact KeepsPorts.setGroupEntry ..
  | setTrigger =>
    refine .admitted fun _ => .require fun _ => ?_
    split
    · exact KeepsPorts.setTrigger ..
    · exact .refl
  | readGroup =>
    refine .admitted fun _ => ?_
    split <;> exact .refl
  | linkStart => exact .admitted fun _ => .require fun _ => .require fun _ => KeepsPorts.setLink ..
  | linkFlush =>
    exact .admitted fun _ => .require fun _ => .require fun _ =>
      (KeepsPorts.freeSlots s s.retiringSlots).trans (KeepsPorts.setLink ..)
  | resync => exact .admitted fun _ => .require fun _ => .require fun _ => KeepsPorts.setLink ..
  | setLink =>
    refine .admitted fun _ => .require fun _ => ?_
    split
    · exact .refl
    · exact KeepsPorts.applyLinkSettings ..
  | scan => exact KeepsPorts.opScan ..
  | scanNext => exact KeepsPorts.opScanNext ..
  | poll => exact .admitted fun _ => KeepsPorts.setPort Port.Lawful.poll
  | status => exact .admitted fun _ => KeepsPorts.setSafe ..
  | clearTable => exact .admitted fun _ => .require fun _ => .require fun _ => KeepsPorts.clearTable s

/-! ### The events of a port (R148, R149, R153, R157, R159, R160) -/

section
variable {o : State} (s : State) (p : PortId)

theorem KeepsPorts.selectActivation : KeepsPorts o s (s.selectActivation p) := by
  unfold State.selectActivation
  split
  · exact .setPort fun h => h.restartBreak (by simp)
  · exact .refl

theorem KeepsPorts.clockEdge : KeepsPorts o s (s.clockEdge p) := by
  unfold State.clockEdge
  split
  · exact .refl
  · exact .refl
  next hactive _ => exact .setPort fun h => h.restartBreak hactive

theorem KeepsPorts.selectRelease : KeepsPorts o s (s.selectRelease p) :=
  .setPort Port.Lawful.releaseSelect

theorem KeepsPorts.request (bytes : List Byte) : KeepsPorts o s (s.request p bytes) := by
  unfold State.request
  split
  · exact .setPort fun h => h.releaseSelect.receive bytes
  · exact .refl

theorem KeepsPorts.frameCompletion : KeepsPorts o s (s.frameCompletion p) := by
  unfold State.frameCompletion
  split
  · split
    case h_4 => exact .refl
    all_goals exact .setPort fun h => h.complete ..
  · exact .refl

theorem KeepsPorts.batchApplication : KeepsPorts o s (s.batchApplication p) := by
  unfold State.batchApplication
  split
  · split
    · exact (Keeps.applyBatch (KeepsPorts.applyOp p _) _ s).trans (KeepsPorts.setPort fun h => h.completeOk ..)
    · exact .refl
  · exact .refl

theorem Port.readoutStart_ne_inactive (x : Port) : x.readoutStart ≠ .inactive := by
  unfold Port.readoutStart
  split <;> nofun

theorem KeepsPorts.readout : KeepsPorts o s (s.readout p) := by
  unfold State.readout
  split
  · exact .setPort fun h => h.restartBreak (Port.readoutStart_ne_inactive _)
  · exact .refl

theorem KeepsPorts.readoutEnd : KeepsPorts o s (s.readoutEnd p) := by
  unfold State.readoutEnd
  split
  · exact .setPort fun h => h.markRead.releaseSelect
  · exact .setPort Port.Lawful.releaseSelect
  · exact .refl

theorem KeepsPorts.transactionIgnored (first : Option Byte) : KeepsPorts o s (s.transactionIgnored p first) := by
  unfold State.transactionIgnored
  split
  · split
    · exact KeepsPorts.selectRelease ..
    · split
      · exact .refl
      · exact .setPort fun h => h.restartBreak (by simp)
  · exact .refl

theorem KeepsPorts.portBreak : KeepsPorts o s (s.portBreak p) := by
  unfold State.portBreak
  split
  · exact .refl
  · split
    · exact .setPort fun h => h.startBreak.endBreak
    · exact .setPort Port.Lawful.startBreak

theorem KeepsPorts.breakDismissal : KeepsPorts o s (s.breakDismissal p) := by
  unfold State.breakDismissal
  split
  · exact KeepsPorts.dismissWriter ..
  · exact .refl

theorem KeepsPorts.breakCompletion : KeepsPorts o s (s.breakCompletion p) := by
  unfold State.breakCompletion
  split
  · exact .setPort Port.Lawful.endBreak
  · exact .refl

end

/-! ### The events of commits, supervision and the link (chapters 5 to 7) -/

section
variable {o : State} (s : State)

theorem KeepsPorts.cycleExpiry (g : GroupNo) : KeepsPorts o s (s.cycleExpiry g) := by
  unfold State.cycleExpiry
  split
  · exact .refl
  · exact KeepsPorts.commit ..

theorem KeepsPorts.risingEdge (l : TriggerLine) : KeepsPorts o s (s.risingEdge l) := by
  unfold State.risingEdge
  split
  · split
    · exact KeepsPorts.setSafe ..
    · exact KeepsPorts.commit ..
  · exact .refl

theorem KeepsPorts.freshnessExpiry (i : SlotNo) : KeepsPorts o s (s.freshnessExpiry i) := by
  unfold State.freshnessExpiry
  split
  · split
    · exact (KeepsPorts.changeRecord ..).trans (KeepsPorts.notifyOwner ..)
    · exact .refl
  · exact .refl

theorem KeepsPorts.holdTimerExpiry (i : SlotNo) : KeepsPorts o s (s.holdTimerExpiry i) := by
  unfold State.holdTimerExpiry
  split
  next r _ =>
    split
    · refine (KeepsPorts.changeRecord s i r (r.holdExpired s.safeActive)).trans ?_
      dsimp only
      split
      · exact KeepsPorts.notifyOwner ..
      · exact .refl
    · exact .refl
  · exact .refl

theorem KeepsPorts.safeNChange (high : Bool) : KeepsPorts o s (s.safeNChange high) := by
  unfold State.safeNChange
  split
  · exact .refl
  · exact KeepsPorts.setSafe ..

theorem KeepsPorts.holdForSafe (i : SlotNo) : KeepsPorts o s (s.holdForSafe i) := by
  unfold State.holdForSafe
  split
  · split
    · exact KeepsPorts.changeRecord ..
    · exact .refl
  · exact .refl

theorem KeepsPorts.releaseFromSafe (i : SlotNo) : KeepsPorts o s (s.releaseFromSafe i) := by
  unfold State.releaseFromSafe
  split
  · split
    · exact KeepsPorts.changeRecord ..
    · exact .refl
  · exact .refl

theorem KeepsPorts.startCycle (g : GroupNo) : KeepsPorts o s (s.startCycle g) := by
  unfold State.startCycle
  split
  · exact .refl
  · exact KeepsPorts.setGroupEntry ..

theorem KeepsPorts.safeEntry : KeepsPorts o s s.safeEntry := by
  unfold State.safeEntry
  split
  · exact (KeepsPorts.setSafe ..).trans <| (Keeps.foldl KeepsPorts.holdForSafe allSlots).trans <|
      (Keeps.foldl (fun s g => KeepsPorts.setGroupEntry s g _) allGroups).trans <| KeepsPorts.notifyBoth ..
  · exact .refl

theorem KeepsPorts.safeRelease : KeepsPorts o s s.safeRelease := by
  unfold State.safeRelease
  split
  · exact (KeepsPorts.setSafe ..).trans <| (Keeps.foldl KeepsPorts.releaseFromSafe allSlots).trans <|
      (Keeps.foldl KeepsPorts.startCycle allGroups).trans <| KeepsPorts.notifyBoth ..
  · exact .refl

theorem KeepsPorts.sendEvent : KeepsPorts o s s.sendEvent := by
  unfold State.sendEvent
  split
  · exact (KeepsPorts.setChoices s _).trans (KeepsPorts.setLink s.counted _)
  · exact .refl

theorem KeepsPorts.completeFrame (f : InFlight) : KeepsPorts o s (s.completeFrame f) := by
  obtain ⟨-, -, frame⟩ := s.completeFrame_spec f
  exact .elsewhere (by rw [frame]; rfl) (fun _ => by rw [frame]; rfl) (by rw [frame])

/-- A link that goes DOWN tells both ports (R137). -/
theorem KeepsPorts.failTransmission (f : InFlight) : KeepsPorts o s (s.failTransmission f) := by
  unfold State.failTransmission
  split
  · exact KeepsPorts.setLink ..
  · exact (KeepsPorts.setLink s _).trans (KeepsPorts.notifyBoth ..)

theorem KeepsPorts.endOfTransmission : KeepsPorts o s s.endOfTransmission := by
  unfold State.endOfTransmission
  split
  · split
    · exact KeepsPorts.completeFrame ..
    · exact KeepsPorts.setLink ..
  · exact .refl

theorem KeepsPorts.ackTimerExpiry : KeepsPorts o s s.ackTimerExpiry := by
  unfold State.ackTimerExpiry
  split
  · exact KeepsPorts.failTransmission ..
  · exact .refl

theorem KeepsPorts.judgeAck (kind number : Byte) : KeepsPorts o s (s.judgeAck kind number) := by
  unfold State.judgeAck
  split
  · exact .refl
  split
  · exact .refl
  split
  · split
    · exact KeepsPorts.completeFrame ..
    · split
      · exact KeepsPorts.failTransmission ..
      · exact .refl
  · split
    · exact KeepsPorts.setLink ..
    · exact .refl
  · exact .refl

theorem KeepsPorts.acknowledgement (kind number : Byte) : KeepsPorts o s (s.acknowledgement kind number) := by
  unfold State.acknowledgement
  split
  · exact .refl
  · exact (KeepsPorts.setLink s _).trans (KeepsPorts.judgeAck ..)

theorem KeepsPorts.receive (r : Reception) (byte : Byte) (stopHigh : Bool) :
    KeepsPorts o s (s.receive r byte stopHigh) := by
  unfold State.receive
  split
  · exact .refl
  split
  · exact KeepsPorts.setLink ..
  split
  · exact KeepsPorts.setLink ..
  split
  · exact KeepsPorts.setLink ..
  · exact (KeepsPorts.setLink s _).trans (KeepsPorts.judgeAck ..)

theorem KeepsPorts.rxpByte (byte : Byte) (stopHigh : Bool) (moment : RxpMoment) :
    KeepsPorts o s (s.rxpByte byte stopHigh moment) := by
  unfold State.rxpByte
  split
  · unfold State.beginByte
    split
    · exact KeepsPorts.setRxp ..
    · exact .refl
  · exact (KeepsPorts.setRxp s none).trans (KeepsPorts.receive ..)

theorem KeepsPorts.tick : KeepsPorts o s s.tick := by
  refine .of_laws rfl fun h p => (State.portLaw_iff _ p).mpr ?_
  rw [State.tick_port]
  exact ((s.portLaw_iff p).mp (h p)).tick

/-- A reset leaves both ports lawful, whatever they were (R162). -/
theorem KeepsPorts.afterReset : KeepsPorts o s s.afterReset := by
  refine .of_laws rfl fun _ p => (State.portLaw_iff _ p).mpr ?_
  cases p <;> exact Port.lawful_afterReset _

end

/-! ### Every command, every step -/

theorem KeepsPorts.exec {o : State} {c : Instr} {s t : State} (h : exec c s = .next t) : KeepsPorts o s t := by
  cases c
  case powerOnReset => cases h; exact KeepsPorts.afterReset s
  case rstN => cases h; exact KeepsPorts.afterReset s
  case selectActivation => cases h; exact KeepsPorts.selectActivation ..
  case request => cases h; exact KeepsPorts.request ..
  case frameCompletion => cases h; exact KeepsPorts.frameCompletion ..
  case readout => cases h; exact KeepsPorts.readout ..
  case readoutEnd => cases h; exact KeepsPorts.readoutEnd ..
  case transactionIgnored => cases h; exact KeepsPorts.transactionIgnored ..
  case portBreak => cases h; exact KeepsPorts.portBreak ..
  case breakDismissal => cases h; exact KeepsPorts.breakDismissal ..
  case breakCompletion => cases h; exact KeepsPorts.breakCompletion ..
  case batchApplication => cases h; exact KeepsPorts.batchApplication ..
  case clockEdge => cases h; exact KeepsPorts.clockEdge ..
  case selectRelease => cases h; exact KeepsPorts.selectRelease ..
  case freshnessExpiry => cases h; exact KeepsPorts.freshnessExpiry ..
  case holdTimerExpiry => cases h; exact KeepsPorts.holdTimerExpiry ..
  case cycleTimerExpiry => cases h; exact KeepsPorts.cycleExpiry ..
  case risingEdge => cases h; exact KeepsPorts.risingEdge ..
  case safeNChange => cases h; exact KeepsPorts.safeNChange ..
  case safeEntry => cases h; exact KeepsPorts.safeEntry s
  case safeRelease => cases h; exact KeepsPorts.safeRelease s
  case sendEvent => cases h; exact KeepsPorts.sendEvent s
  case endOfTransmission => cases h; exact KeepsPorts.endOfTransmission s
  case acknowledgement => cases h; exact KeepsPorts.acknowledgement ..
  case acknowledgementTimerExpiry => cases h; exact KeepsPorts.ackTimerExpiry s
  case rxpByte => cases h; exact KeepsPorts.rxpByte ..
  all_goals
    rw [exec_operation rfl] at h
    cases h
    exact (KeepsPorts.applyOp ..).trans (KeepsPorts.answered _)

theorem exec_leaves {c : Instr} {s t : State} (h : exec c s = .next t) : s.Leaves t :=
  (KeepsPorts.exec h).law s.leaves_refl

theorem exec_completes (c : Instr) (s : State) : ∃ t, exec c s = .next t := by
  cases c <;> exact ⟨_, rfl⟩

/-- Settles O3: every arm of `exec` gives a next state, and no event touches the waiting commands. -/
theorem everyCommandCompletes : Obligations.EveryCommandCompletes := by
  intro c s
  obtain ⟨t, h⟩ := exec_completes c s
  exact ⟨t, h, (exec_leaves h).pending⟩

/-- Settles O60: every command and the passing of time keep the laws of both ports together. A dismissal closes the
cursor of the writer it makes VACANT, and a binding goes to a writer that was VACANT and so has no cursor. -/
theorem stepKeepsPortLaws : Obligations.StepKeepsPortLaws := by
  intro s t hs h
  unfold step at h
  split at h
  · exact (exec_leaves h).laws hs
  · split at h
    · exact (exec_leaves h).laws hs
    · cases h
      exact ((KeepsPorts.tick _).law s.counted.leaves_refl).laws hs

end Sys2Proof.Machine

namespace Sys2Proof.Machine

/-! ### The bits on SDI spell a command (R148, R174) -/

/-- Each bit is taken once, at its rising edge. -/
theorem sampledBits_edges (bits : List Bool) :
    sampledBits (bits.flatMap fun bit => [.rising bit, .falling]) = bits := by
  induction bits with
  | nil => rfl
  | cons bit bits ih => simp [sampledBits, ih]

/-- Eight bits, most significant first, make their byte again. -/
theorem bytesOfBits_flatMap_msbFirst (bytes : List Byte) : bytesOfBits (bytes.flatMap msbFirst) = bytes := by
  induction bytes with
  | nil => rfl
  | cons b bytes ih =>
    rw [List.flatMap_cons]
    simp only [msbFirst, List.cons_append, List.nil_append, bytesOfBits, byteOfBits_msbFirst, ih]

theorem serialCommand_of_bytes (p : PortId) (sdi : List Byte) :
    serialCommand p ((sdi.flatMap msbFirst).flatMap fun bit => [.rising bit, .falling]) = transactionCommand p sdi := by
  rw [serialCommand, sampledBits_edges, bytesOfBits_flatMap_msbFirst]

theorem transactionCommand_cons (p : PortId) (code : Byte) (bytes : List Byte) :
    transactionCommand p (code :: bytes) =
      if code = 0xA1 then .request p bytes
      else if code = 0xA2 then .readout p
      else .transactionIgnored p (some code) := by
  by_cases hrequest : code = 0xA1
  · rw [if_pos hrequest, hrequest]
    rfl
  · by_cases hreadout : code = 0xA2
    · rw [if_neg hrequest, if_pos hreadout, hreadout]
      rfl
    · have hcode : transactionCode? code = none := (if_neg hrequest).trans (if_neg hreadout)
      simp only [transactionCommand, hcode, if_neg hrequest, if_neg hreadout]

/-! ### The lines of a port (R148, R159) -/

theorem Transaction.takesCode_iff (t : Transaction) : t.takesCode = true ↔ t = .inactive ∨ t = .begun := by
  cases t <;> simp [Transaction.takesCode]

/-- What restarting the break interval gives: 5 ms, or the interval as it stands during a break (R159). -/
theorem Port.restartBreak_eq (x : Port) :
    x.restartBreak =
      { x with breakInterval := if x.service = .breaking then x.breakInterval else .running (ms 5) } := by
  unfold Port.restartBreak
  split <;> rfl

section
variable {s : State} {p : PortId}

theorem State.selectActivation_of_inactive (h : (s.port p).transaction = .inactive) :
    s.selectActivation p = s.setPort p ({ s.port p with transaction := .begun } : Port).restartBreak :=
  if_pos h

theorem State.selectActivation_of_active (h : (s.port p).transaction ≠ .inactive) : s.selectActivation p = s :=
  if_neg h

theorem State.clockEdge_of_resting (h : (s.port p).transaction = .inactive ∨ (s.port p).transaction = .broken) :
    s.clockEdge p = s := by
  unfold State.clockEdge
  rcases h with h | h <;> rw [h]

theorem State.clockEdge_of_running (hi : (s.port p).transaction ≠ .inactive) (hb : (s.port p).transaction ≠ .broken) :
    s.clockEdge p = s.setPort p (s.port p).restartBreak := by
  unfold State.clockEdge
  split
  next h => exact absurd h hi
  next h => exact absurd h hb
  · rfl

theorem State.transactionIgnored_none (h : (s.port p).transaction.takesCode = true) :
    s.transactionIgnored p none = s.selectRelease p :=
  if_pos h

theorem State.transactionIgnored_byte (h : (s.port p).transaction.takesCode = true) {b : Byte} (h1 : b ≠ 0xA1)
    (h2 : b ≠ 0xA2) :
    s.transactionIgnored p (some b) = s.setPort p ({ s.port p with transaction := .ignored } : Port).restartBreak := by
  have hcode : transactionCode? b = none := (if_neg h1).trans (if_neg h2)
  unfold State.transactionIgnored
  rw [if_pos h]
  dsimp only
  rw [hcode]
  rfl

end

/-- Settles O44: each line command does what R159 says of the transaction it meets, and the bits on SDI come back as the
bytes that spell the transaction. -/
theorem portLinesDriveTheBreakInterval : Obligations.PortLinesDriveTheBreakInterval := by
  intro p s
  refine ⟨fun hi => ⟨?_, ?_⟩, fun hi => ?_, fun hb => ?_, fun hi hb => ?_, rfl, fun ht => ⟨?_, fun b h1 h2 => ?_⟩,
    fun sdi => ?_⟩
  · exact congrArg _ ((State.selectActivation_of_inactive hi).trans (by rw [Port.restartBreak_eq]))
  · exact congrArg _ (State.clockEdge_of_resting (.inl hi))
  · exact congrArg _ (State.selectActivation_of_active hi)
  · exact congrArg _ (State.clockEdge_of_resting (.inr hb))
  · exact congrArg _ ((State.clockEdge_of_running hi hb).trans (by rw [Port.restartBreak_eq]))
  · exact congrArg _ (State.transactionIgnored_none ((Transaction.takesCode_iff _).mpr ht))
  · exact congrArg _ ((State.transactionIgnored_byte ((Transaction.takesCode_iff _).mpr ht) h1 h2).trans
      (by rw [Port.restartBreak_eq]))
  · rw [serialCommand_of_bytes]
    cases sdi with
    | nil => rfl
    | cons code bytes => exact transactionCommand_cons p code bytes

/-! ### A completed request frame (R149) -/

theorem Port.rdy_eq (x : Port) : x.rdy = x.stored.any fun r => !r.read := by
  unfold Port.rdy
  cases x.stored <;> rfl

theorem Port.receive_of_ready {x : Port} (h : x.service = .ready) (bytes : List Byte) :
    x.receive bytes = { x with
      service := .serving
        { sequence := frameSequence bytes, crc := frameCrc bytes, judgement := judgeFrame x.duplicate bytes }
      stored := none
      unreadDiscarded := x.unreadDiscarded || x.stored.any fun r => !r.read } := by
  rw [← Port.rdy_eq]
  unfold Port.receive
  rw [h]
  rfl

theorem Port.receive_of_inService {x : Port} (h : x.service ≠ .ready) (bytes : List Byte) :
    x.receive bytes = { x with overrun := true } := by
  unfold Port.receive
  split
  next hr => exact absurd hr h
  · rfl

/-- Settles O45: the transaction decides whether a frame completes, the service whether it is taken. -/
theorem requestIsTakenOrDiscarded : Obligations.RequestIsTakenOrDiscarded := by
  intro p bytes s
  refine ⟨fun ht => ?_, fun hi hb => ?_⟩
  · have completed {x : Port} (hx : (s.port p).releaseSelect.receive bytes = x) :
        exec (.request p bytes) s = .next (s.setPort p x) :=
      congrArg _ ((if_pos ((Transaction.takesCode_iff _).mpr ht)).trans (congrArg _ hx))
    exact ⟨fun hr => completed (Port.receive_of_ready (x := (s.port p).releaseSelect) hr bytes),
      fun hr => completed (Port.receive_of_inService (x := (s.port p).releaseSelect) hr bytes)⟩
  · exact congrArg _ (if_neg fun h => ((Transaction.takesCode_iff _).mp h).elim hi hb)

/-! ### Completion (R152, R153, R156) -/

section
variable {s : State} {p : PortId} {f : TakenFrame} (hf : (s.port p).service = .serving f)
include hf

theorem State.frameCompletion_crcError (hj : f.judgement = .crcError) :
    s.frameCompletion p = s.setPort p ((s.port p).complete f .crcError []) := by
  simp only [State.frameCompletion, hf, hj]

theorem State.frameCompletion_malformed (hj : f.judgement = .malformed) :
    s.frameCompletion p = s.setPort p ((s.port p).complete f .malformed []) := by
  simp only [State.frameCompletion, hf, hj]

theorem State.frameCompletion_duplicate (hj : f.judgement = .duplicate) {m : DuplicateMemory}
    (hm : (s.port p).duplicate = some m) :
    s.frameCompletion p = s.setPort p ((s.port p).complete f .duplicate m.results) := by
  simp only [State.frameCompletion, hf, hj, Port.remembered, hm]

theorem State.batchApplication_ok {w : WriterNo} {ops : List Op} (hj : f.judgement = .ok w ops) :
    s.batchApplication p = (applyBatch p w ops s).2.setPort p
      (((applyBatch p w ops s).2.port p).completeOk f (applyBatch p w ops s).1) := by
  simp only [State.batchApplication, hf, hj]

end

/-- Settles O47: each judgement leads to its completion, composed from the port as it stands then. -/
theorem framesCompleteWithTheirResponse : Obligations.FramesCompleteWithTheirResponse := by
  intro p f s hf
  exact ⟨fun hj => congrArg _ (State.frameCompletion_crcError hf hj),
    fun hj => congrArg _ (State.frameCompletion_malformed hf hj),
    fun _ hj hm => congrArg _ (State.frameCompletion_duplicate hf hj hm),
    fun _ _ hj => congrArg _ (State.batchApplication_ok hf hj)⟩

/-! ### Read-out (R157, R174) -/

theorem Port.readoutStart_eq (x : Port) :
    x.readoutStart = .readout x.stored.isSome
      (match x.stored with | some r => r.response.bytes | none => x.noneHeader.bytes) := by
  unfold Port.readoutStart
  cases x.stored <;> rfl

/-- A fill byte has every bit set. -/
theorem fillByte_getLsbD {n : Nat} (h : n < 8) : (0xFF : Byte).getLsbD n = true := by
  interval_cases n <;> rfl

/-- In a READOUT SDO carries the bits of the bytes sent, and fill after the last of them. -/
theorem Transaction.sdoBit_readout (ofStored : Bool) (bytes : List Byte) (n : Nat) :
    (Transaction.readout ofStored bytes).sdoBit n =
      if n < 8 * bytes.length then (byteAt bytes (n / 8)).getLsbD (7 - n % 8) else true := by
  have hbyte : (Transaction.readout ofStored bytes).sdoBit n =
      ((bytes[n / 8]?).getD 0xFF).getLsbD (7 - n % 8) := rfl
  rw [hbyte, byteAt]
  by_cases h : n < 8 * bytes.length
  · have hn : n / 8 < bytes.length := by omega
    rw [if_pos h, List.getElem?_eq_getElem hn]
    rfl
  · have hn : bytes.length ≤ n / 8 := by omega
    rw [if_neg h, List.getElem?_eq_none hn]
    exact fillByte_getLsbD (by omega)

/-- Outside a READOUT SDO carries fill, and before the first falling edge a high level (notes/assumptions/19.md). -/
theorem Transaction.sdo_fill {t : Transaction} (h : ∀ ofStored bytes, t ≠ .readout ofStored bytes) (n : Nat) :
    t.sdo n = true := by
  cases n with
  | zero => rfl
  | succ n =>
    change (t.sdoByte (n / 8)).getLsbD (7 - n % 8) = true
    rw [Transaction.sdoByte_fill t h]
    exact fillByte_getLsbD (by omega)

/-- Settles O49: the transaction holds what a READOUT sends from its start, and SDO shows its bits in order. -/
theorem readoutSendsTheStoredResponse : Obligations.ReadoutSendsTheStoredResponse := by
  intro p s
  refine ⟨fun ht => ?_, fun hi hb => ?_, fun bytes ht => ?_, fun bytes ht => ?_, fun ofStored bytes n ht => ?_,
    Transaction.sdo_fill⟩
  · refine congrArg _ ((if_pos ((Transaction.takesCode_iff _).mpr ht)).trans ?_)
    rw [Port.restartBreak_eq, Port.readoutStart_eq]
    rfl
  · exact congrArg _ (if_neg fun h => ((Transaction.takesCode_iff _).mp h).elim hi hb)
  · have ended : s.readoutEnd p = s.setPort p (s.port p).markRead.releaseSelect := by
      simp only [State.readoutEnd, ht]
    exact congrArg _ ended
  · have ended : s.readoutEnd p = s.setPort p (s.port p).releaseSelect := by
      simp only [State.readoutEnd, ht]
    exact congrArg _ ended
  · rw [ht]
    exact Transaction.sdoBit_readout ofStored bytes n

end Sys2Proof.Machine

namespace Sys2Proof.Machine

/-! ### What a refused operation leaves (R93, R153) -/

/-- The part after an operation refused with a status: unchanged, but that SAFE_ACTIVE sets the flag of R93. -/
def State.afterRefusal (s : State) (status : Status) : State :=
  if status = .safeActive then s.flagCommitRefused else s

/-- Unless its status is OK, an operation leaves the part as its refusal says. -/
structure RefusesCleanly (s : State) (a : Applied) : Prop where
  after : a.1.status ≠ .ok → a.2 = s.afterRefusal a.1.status

section
variable {s : State}

/-- A result that names no SAFE_ACTIVE, over the part as it was. -/
theorem RefusesCleanly.unchanged {result : OpResult} (h : result.status ≠ .safeActive) :
    RefusesCleanly s (result, s) :=
  ⟨fun _ => (if_neg h).symm⟩

theorem RefusesCleanly.refuse {status : Status} (h : status ≠ .safeActive) :
    RefusesCleanly s (refuse status s) :=
  .unchanged h

theorem RefusesCleanly.accept {d : Data} {t : State} : RefusesCleanly s (accept d t) :=
  ⟨fun h => absurd rfl h⟩

theorem RefusesCleanly.require {c : Prop} [Decidable c] {status : Status} {next : Applied}
    (h : status ≠ .safeActive) (next_clean : RefusesCleanly s next) : RefusesCleanly s (require c status s next) := by
  unfold Machine.require
  split
  · exact next_clean
  · exact .refuse h

theorem RefusesCleanly.admitted {p : PortId} {w : WriterNo} {next : Applied} (h : RefusesCleanly s next) :
    RefusesCleanly s (admitted p w s next) :=
  .require nofun (.require nofun h)

theorem RefusesCleanly.onRecord {tag : Word16} {next : SlotNo → Record → Applied}
    (h : ∀ i r, RefusesCleanly s (next i r)) : RefusesCleanly s (onRecord tag s next) := by
  unfold Machine.onRecord
  split
  · exact .refuse nofun
  · exact h ..

theorem RefusesCleanly.onOwned {p : PortId} {w : WriterNo} {tag : Word16} {next : SlotNo → Record → Applied}
    (h : ∀ i r, RefusesCleanly s (next i r)) : RefusesCleanly s (onOwned p w tag s next) :=
  .admitted <| .require nofun <| .require nofun <| .onRecord fun i r => .require nofun (h i r)

theorem RefusesCleanly.onShaped {p : PortId} {w : WriterNo} {tag : Word16} {operands : Prop} [Decidable operands]
    {next : SlotNo → Record → Applied} (h : ∀ i r, RefusesCleanly s (next i r)) :
    RefusesCleanly s (onShaped p w tag operands s next) :=
  .admitted <| .require nofun <| .require nofun <| .onRecord fun i r => .require nofun (h i r)

variable (p : PortId) (w : WriterNo)

theorem opClaim_refusesCleanly (tag : Word16) (precedence : Byte) :
    RefusesCleanly s (opClaim p w tag precedence s) := by
  refine .admitted <| .require nofun <| .require nofun <| .require nofun <| .onRecord fun i r => ?_
  split
  · exact .require nofun .accept
  · split
    · exact .accept
    · split
      · exact .unchanged nofun
      · split
        · exact .unchanged nofun
        · exact .require nofun .accept

theorem opSetLimits_refusesCleanly (tag : Word16) (lower upper : Value) :
    RefusesCleanly s (opSetLimits p w tag lower upper s) := by
  refine .onShaped fun i r => ?_
  dsimp only
  split
  · exact .unchanged nofun
  · exact .accept

/-- COMMIT alone is refused because SAFE is active, and notes it (R93). -/
theorem opCommit_refusesCleanly (group : Byte) : RefusesCleanly s (opCommit p w group s) := by
  refine .admitted <| .require nofun ?_
  split
  · exact .refuse nofun
  · split
    · exact ⟨fun _ => rfl⟩
    · exact .accept

theorem opSetSupervision_refusesCleanly (tag freshness : Word16) (holdPolicy holdPeriod orphan : Byte) :
    RefusesCleanly s (opSetSupervision p w tag freshness holdPolicy holdPeriod orphan s) := by
  unfold opSetSupervision
  split
  · exact .onShaped fun _ _ => .refuse nofun
  · exact .onShaped fun _ _ => .accept

theorem opSetGroup_refusesCleanly (tag : Word16) (group : Byte) :
    RefusesCleanly s (opSetGroup p w tag group s) := by
  unfold opSetGroup
  split
  · exact .onShaped fun _ _ => .refuse nofun
  · exact .onShaped fun _ _ => .accept

end

theorem applyOp_refusesCleanly (p : PortId) (w : WriterNo) (op : Op) (s : State) :
    RefusesCleanly s (applyOp p w op s) := by
  cases op with
  | admitWriter => exact .require nofun .accept
  | dismiss =>
    refine .admitted <| .require nofun ?_
    split
    · exact .refuse nofun
    · exact .require nofun .accept
  | setProfile =>
    refine .admitted <| .require nofun ?_
    split
    · exact .require nofun <| .require nofun .accept
    · exact .refuse nofun
  | readProfile =>
    refine .admitted ?_
    split
    · exact .refuse nofun
    · exact .accept
  | create =>
    refine .admitted <| .require nofun ?_
    split
    · exact .refuse nofun
    · refine .require nofun <| .require nofun ?_
      split
      · exact .refuse nofun
      · exact .accept
  | retire => exact .admitted <| .require nofun <| .require nofun <| .onRecord fun _ _ => .require nofun .accept
  | read => exact .admitted <| .require nofun <| .onRecord fun _ _ => .accept
  | claim => exact opClaim_refusesCleanly ..
  | release => exact .admitted <| .require nofun <| .onRecord fun _ _ => .require nofun .accept
  | stage =>
    refine .onOwned fun _ _ => ?_
    split
    · exact .refuse nofun
    · exact .accept
  | touch => exact .onOwned fun _ _ => .accept
  | unlatch => exact .onOwned fun _ _ => .require nofun .accept
  | setLimits => exact opSetLimits_refusesCleanly ..
  | setFallback => exact .onShaped fun _ _ => .require nofun .accept
  | setSupervision => exact opSetSupervision_refusesCleanly ..
  | setGroup => exact opSetGroup_refusesCleanly ..
  | commit => exact opCommit_refusesCleanly ..
  | setCycle =>
    refine .admitted <| .require nofun ?_
    split
    · exact .refuse nofun
    · exact .accept
  | setTrigger =>
    refine .admitted <| .require nofun ?_
    split
    · exact .accept
    · exact .refuse nofun
  | readGroup =>
    refine .admitted ?_
    split
    · exact .refuse nofun
    · exact .accept
  | linkStart => exact .admitted <| .require nofun <| .require nofun .accept
  | linkFlush => exact .admitted <| .require nofun <| .require nofun .accept
  | resync => exact .admitted <| .require nofun <| .require nofun .accept
  | setLink =>
    refine .admitted <| .require nofun ?_
    split
    · exact .refuse nofun
    · exact .accept
  | scan =>
    refine .admitted ?_
    split
    · exact .refuse nofun
    · exact .accept
  | scanNext =>
    refine .admitted ?_
    split
    · exact .refuse nofun
    · exact .require nofun .accept
  | poll => exact .admitted .accept
  | status => exact .admitted .accept
  | clearTable => exact .admitted <| .require nofun <| .require nofun .accept

/-! ### A batch, operation by operation (R153) -/

section
variable (p : PortId) (w : WriterNo)

theorem applyBatch_single (op : Op) (s : State) :
    applyBatch p w [op] s = ([(applyOp p w op s).1], (applyOp p w op s).2) := by
  unfold applyBatch
  dsimp only
  split <;> rfl

variable {s : State} {op : Op} (rest : List Op)

theorem applyBatch_cons_ok (h : (applyOp p w op s).1.status = .ok) :
    applyBatch p w (op :: rest) s =
      ((applyOp p w op s).1 :: (applyBatch p w rest (applyOp p w op s).2).1,
        (applyBatch p w rest (applyOp p w op s).2).2) :=
  if_pos h

theorem applyBatch_cons_refused (h : (applyOp p w op s).1.status ≠ .ok) :
    applyBatch p w (op :: rest) s =
      ((applyOp p w op s).1 :: rest.map (fun _ => skippedResult), (applyOp p w op s).2) :=
  if_neg h

/-- While every result is OK, the rest of a batch goes on from the part they leave. -/
theorem applyBatch_append {first : List Op} (h : ∀ x ∈ (applyBatch p w first s).1, x.status = .ok) :
    applyBatch p w (first ++ rest) s =
      ((applyBatch p w first s).1 ++ (applyBatch p w rest (applyBatch p w first s).2).1,
        (applyBatch p w rest (applyBatch p w first s).2).2) := by
  induction first generalizing s with
  | nil => rfl
  | cons op first ih =>
    by_cases hok : (applyOp p w op s).1.status = .ok
    · rw [applyBatch_cons_ok p w first hok] at h ⊢
      rw [List.cons_append, applyBatch_cons_ok p w _ hok, ih fun x hx => h x (List.mem_cons_of_mem _ hx)]
      rfl
    · rw [applyBatch_cons_refused p w first hok] at h
      exact absurd (h _ List.mem_cons_self) hok

end

/-- Settles O48: a batch goes on while its results are OK; a refused operation leaves only the flag of R93, and what
follows it is skipped. -/
theorem batchStopsAtFirstRefusal : Obligations.BatchStopsAtFirstRefusal := by
  refine ⟨?_, fun c p w op s hc => ?_⟩
  · intro p w first rest op s before hok
    refine ⟨(applyOp p w op before.2).1, (applyOp p w op before.2).2, applyBatch_single p w op _, fun h => ?_,
      fun h => ⟨?_, (applyOp_refusesCleanly p w op before.2).after h⟩⟩
    · rw [applyBatch_append p w (op :: rest) hok, applyBatch_cons_ok p w rest h]
    · rw [applyBatch_append p w (op :: rest) hok, applyBatch_cons_refused p w rest h]
      rfl
  · rw [exec_operation hc, applyBatch_single]
    rfl

end Sys2Proof.Machine

namespace Sys2Proof.Machine

/-! ### Fields written and read (10.1) -/

@[simp] theorem length_bytes16 (x : Word16) : (bytes16 x).length = 2 := rfl

@[simp] theorem length_withCrc (bytes : List Byte) : (withCrc bytes).length = bytes.length + 2 := by
  simp [withCrc]

/-- Two bytes are those of the field they make. -/
theorem bytes16_word16 (hi lo : Byte) : bytes16 (word16 hi lo) = [hi, lo] := by
  have hhi : (word16 hi lo).extractLsb' 8 8 = hi := BitVec.extractLsb'_append_eq_left
  have hlo : (word16 hi lo).extractLsb' 0 8 = lo := BitVec.extractLsb'_append_eq_right
  rw [bytes16, hhi, hlo]

theorem bytes16_injective {x y : Word16} (h : bytes16 x = bytes16 y) : x = y := by
  obtain ⟨hhi, hlo, -⟩ := by simpa only [bytes16, List.cons.injEq] using h
  rw [← word16_bytes16 x, ← word16_bytes16 y, hhi, hlo]

/-- Four bytes are those of the field they make. -/
theorem bytes32_word32 (b3 b2 b1 b0 : Byte) : bytes32 (word32 b3 b2 b1 b0) = [b3, b2, b1, b0] := by
  have h3 : (word32 b3 b2 b1 b0).extractLsb' 24 8 = b3 :=
    (BitVec.extractLsb'_append_eq_of_le (by decide : 16 ≤ 24)).trans BitVec.extractLsb'_append_eq_left
  have h2 : (word32 b3 b2 b1 b0).extractLsb' 16 8 = b2 :=
    (BitVec.extractLsb'_append_eq_of_le (by decide : 16 ≤ 16)).trans BitVec.extractLsb'_append_eq_right
  have h1 : (word32 b3 b2 b1 b0).extractLsb' 8 8 = b1 :=
    (BitVec.extractLsb'_append_eq_of_add_le (by decide : 8 + 8 ≤ 16)).trans BitVec.extractLsb'_append_eq_left
  have h0 : (word32 b3 b2 b1 b0).extractLsb' 0 8 = b0 :=
    (BitVec.extractLsb'_append_eq_of_add_le (by decide : 0 + 8 ≤ 16)).trans BitVec.extractLsb'_append_eq_right
  rw [bytes32, h3, h2, h1, h0]

theorem byte_toNat (b : Byte) : byte b.toNat = b := by
  simp [byte]

theorem toNat_byte {n : Nat} (h : n < 256) : (byte n).toNat = n := by
  rw [byte, BitVec.toNat_ofNat]
  exact Nat.mod_eq_of_lt h

/-! ### The CRC that closes a frame (R150, 10.7) -/

/-- All but the two bytes of a closing field are what the field closes. -/
theorem take_append_bytes16 (bytes : List Byte) (x : Word16) :
    (bytes ++ bytes16 x).take ((bytes ++ bytes16 x).length - 2) = bytes := by
  rw [List.length_append, length_bytes16, Nat.add_sub_cancel, List.take_left]

theorem take_withCrc (bytes : List Byte) : (withCrc bytes).take ((withCrc bytes).length - 2) = bytes :=
  take_append_bytes16 bytes _

/-- Bytes are what comes before their last two, and their CRC field. -/
theorem take_append_frameCrc {bytes : List Byte} (h : 2 ≤ bytes.length) :
    bytes.take (bytes.length - 2) ++ bytes16 (frameCrc bytes) = bytes := by
  obtain ⟨n, hn⟩ : ∃ n, bytes.length = n + 2 := ⟨bytes.length - 2, by omega⟩
  have hdrop : bytes.drop n = [(bytes[n]?).getD 0, (bytes[n + 1]?).getD 0] := by
    rw [List.drop_eq_getElem_cons (by omega), List.drop_eq_getElem_cons (by omega), List.drop_eq_nil_of_le (by omega)]
    simp [hn]
  have hcrc : bytes16 (frameCrc bytes) = bytes.drop n := by
    rw [hdrop, frameCrc, bytes16_word16, hn]
    rfl
  rw [hn, Nat.add_sub_cancel, hcrc, List.take_append_drop]

/-- The CRC field is right exactly where the bytes are those before it closed by their CRC. -/
theorem frameCrc_eq_iff {bytes : List Byte} (h : 2 ≤ bytes.length) :
    frameCrc bytes = crc16 (bytes.take (bytes.length - 2)) ↔ bytes = withCrc (bytes.take (bytes.length - 2)) := by
  have hsplit := take_append_frameCrc h
  constructor
  · intro hc
    rw [withCrc, ← hc, hsplit]
  · intro hb
    exact bytes16_injective (List.append_cancel_left (hsplit.trans hb))

theorem frameCrc_withCrc (bytes : List Byte) : frameCrc (withCrc bytes) = crc16 bytes := by
  have h := (frameCrc_eq_iff (bytes := withCrc bytes) (by simp)).mpr (by rw [take_withCrc])
  rwa [take_withCrc] at h

/-! ### The judgement of a frame (R150) -/

section
variable {memory : Option DuplicateMemory} {bytes : List Byte}

theorem judgeFrame_of_tooLong (h : 240 < bytes.length) : judgeFrame memory bytes = .malformed :=
  if_pos h

theorem judgeFrame_of_badCrc (hlen : bytes.length ≤ 240)
    (h : bytes.length < 3 ∨ bytes ≠ withCrc (bytes.take (bytes.length - 2))) :
    judgeFrame memory bytes = .crcError := by
  refine (if_neg (Nat.not_lt.mpr hlen)).trans (if_pos ?_)
  by_cases hshort : bytes.length < 3
  · exact .inl hshort
  · exact .inr (mt (frameCrc_eq_iff (by omega)).mp (h.resolve_left hshort))

variable (hlen : bytes.length ≤ 240) (hmin : 3 ≤ bytes.length) (hcrc : bytes = withCrc (bytes.take (bytes.length - 2)))
include hlen hmin hcrc

theorem judgeFrame_of_unread (h : readFrame bytes = none) : judgeFrame memory bytes = .malformed := by
  have hright := (frameCrc_eq_iff (by omega)).mpr hcrc
  unfold judgeFrame
  rw [if_neg (by omega), if_neg (fun hbad => hbad.elim (by omega) (absurd hright)), h]

theorem judgeFrame_of_read {w : WriterNo} {ops : List Op} (h : readFrame bytes = some (w, ops)) :
    judgeFrame memory bytes = if isDuplicate memory bytes then .duplicate else .ok w ops := by
  have hright := (frameCrc_eq_iff (by omega)).mpr hcrc
  unfold judgeFrame
  rw [if_neg (by omega), if_neg (fun hbad => hbad.elim (by omega) (absurd hright)), h]

end

/-- A frame repeats the last one applied where sequence and CRC are the ones remembered (R150, step 4). -/
theorem isDuplicate_eq (memory : Option DuplicateMemory) (bytes : List Byte) :
    isDuplicate memory bytes =
      memory.any fun m => m.sequence == (bytes[1]?).getD 0 && m.crc == frameCrc bytes := by
  cases memory <;> rfl

/-- Settles O46: the steps of R150 exclude one another in their order. -/
theorem framesAreJudgedInOrder : Obligations.FramesAreJudgedInOrder := by
  intro memory bytes
  refine ⟨judgeFrame_of_tooLong, judgeFrame_of_badCrc, fun hlen hmin hcrc =>
    ⟨judgeFrame_of_unread hlen hmin hcrc, fun w ops h => ?_⟩⟩
  rw [judgeFrame_of_read hlen hmin hcrc h, isDuplicate_eq, (frameCrc_eq_iff (by omega)).mpr hcrc]

end Sys2Proof.Machine

namespace Sys2Proof.Machine

/-! ### One operation's operands, written and read (R151, 10.3) -/

theorem length_operands_le (op : Op) : op.operands.length ≤ 22 := by
  cases op <;> simp [Op.operands, bytes16, bytes32]

/-- The operands of an operation, as it is sent, are read back by its identifier. -/
theorem readOp_operands (op : Op) : readOp op.identifier.toNat op.operands = some op := by
  cases op <;>
    simp [readOp, Op.identifier, Op.operands, bytes16, bytes32, word16_bytes16, word32_bytes32, plainOp, byteOp, tagOp,
      threeOp, tagValueOp, tagByteOp, readSetProfile, readCreate, readSetLimits, readSetSupervision, readSetCycle,
      readSetLink]

/-- What a reader of operand bytes answers is an operation of the identifier, and is sent with these very bytes. -/
def Reads (read : List Byte → Option Op) (identifier : Nat) : Prop :=
  ∀ bytes op, read bytes = some op → op.identifier.toNat = identifier ∧ op.operands = bytes

section
variable {identifier : Nat}

theorem plainOp_reads {op : Op} (h : op.identifier.toNat = identifier ∧ op.operands = []) :
    Reads (plainOp op) identifier := by
  intro bytes op' hr
  unfold plainOp at hr
  split at hr <;> cases hr
  exact h

theorem byteOp_reads {make : Byte → Op} (h : ∀ a, (make a).identifier.toNat = identifier ∧ (make a).operands = [a]) :
    Reads (byteOp make) identifier := by
  intro bytes op hr
  unfold byteOp at hr
  split at hr <;> cases hr
  exact h _

theorem threeOp_reads {make : Byte → Byte → Byte → Op}
    (h : ∀ a b c, (make a b c).identifier.toNat = identifier ∧ (make a b c).operands = [a, b, c]) :
    Reads (threeOp make) identifier := by
  intro bytes op hr
  unfold threeOp at hr
  split at hr <;> cases hr
  exact h ..

theorem tagOp_reads {make : Word16 → Op}
    (h : ∀ tag, (make tag).identifier.toNat = identifier ∧ (make tag).operands = bytes16 tag) :
    Reads (tagOp make) identifier := by
  intro bytes op hr
  unfold tagOp at hr
  split at hr <;> cases hr
  rw [← bytes16_word16]
  exact h _

theorem tagByteOp_reads {make : Word16 → Byte → Op}
    (h : ∀ tag b, (make tag b).identifier.toNat = identifier ∧ (make tag b).operands = bytes16 tag ++ [b]) :
    Reads (tagByteOp make) identifier := by
  intro bytes op hr
  unfold tagByteOp at hr
  split at hr <;> cases hr
  obtain ⟨hid, hop⟩ := h _ _
  exact ⟨hid, by rw [hop, bytes16_word16]; rfl⟩

theorem tagValueOp_reads {make : Word16 → Value → Op}
    (h : ∀ tag v, (make tag v).identifier.toNat = identifier ∧ (make tag v).operands = bytes16 tag ++ bytes32 v) :
    Reads (tagValueOp make) identifier := by
  intro bytes op hr
  unfold tagValueOp at hr
  split at hr <;> cases hr
  obtain ⟨hid, hop⟩ := h _ _
  exact ⟨hid, by rw [hop, bytes16_word16, bytes32_word32]; rfl⟩

end

theorem readSetProfile_reads : Reads readSetProfile 3 := by
  intro bytes op hr
  unfold readSetProfile at hr
  split at hr <;> cases hr
  exact ⟨rfl, by simp [Op.operands, bytes16_word16]⟩

theorem readCreate_reads : Reads readCreate 5 := by
  intro bytes op hr
  unfold readCreate at hr
  split at hr <;> cases hr
  exact ⟨rfl, by simp [Op.operands, bytes16_word16, bytes32_word32]⟩

theorem readSetLimits_reads : Reads readSetLimits 13 := by
  intro bytes op hr
  unfold readSetLimits at hr
  split at hr <;> cases hr
  exact ⟨rfl, by simp [Op.operands, bytes16_word16, bytes32_word32]⟩

theorem readSetSupervision_reads : Reads readSetSupervision 15 := by
  intro bytes op hr
  unfold readSetSupervision at hr
  split at hr <;> cases hr
  exact ⟨rfl, by simp [Op.operands, bytes16_word16]⟩

theorem readSetCycle_reads : Reads readSetCycle 18 := by
  intro bytes op hr
  unfold readSetCycle at hr
  split at hr <;> cases hr
  exact ⟨rfl, rfl⟩

theorem readSetLink_reads : Reads readSetLink 24 := by
  intro bytes op hr
  unfold readSetLink at hr
  split at hr <;> cases hr
  exact ⟨rfl, rfl⟩

/-- Each identifier has its reader. -/
theorem readOp_reads (identifier : Nat) : Reads (readOp identifier) identifier := by
  intro bytes op h
  unfold readOp at h
  split at h
  · exact plainOp_reads ⟨rfl, rfl⟩ _ _ h
  · exact byteOp_reads (make := .dismiss) (fun _ => ⟨rfl, rfl⟩) _ _ h
  · exact readSetProfile_reads _ _ h
  · exact byteOp_reads (make := .readProfile) (fun _ => ⟨rfl, rfl⟩) _ _ h
  · exact readCreate_reads _ _ h
  · exact tagOp_reads (make := .retire) (fun _ => ⟨rfl, rfl⟩) _ _ h
  · exact tagOp_reads (make := .read) (fun _ => ⟨rfl, rfl⟩) _ _ h
  · exact tagByteOp_reads (make := .claim) (fun _ _ => ⟨rfl, rfl⟩) _ _ h
  · exact tagOp_reads (make := .release) (fun _ => ⟨rfl, rfl⟩) _ _ h
  · exact tagValueOp_reads (make := .stage) (fun _ _ => ⟨rfl, rfl⟩) _ _ h
  · exact tagOp_reads (make := .touch) (fun _ => ⟨rfl, rfl⟩) _ _ h
  · exact tagOp_reads (make := .unlatch) (fun _ => ⟨rfl, rfl⟩) _ _ h
  · exact readSetLimits_reads _ _ h
  · exact tagValueOp_reads (make := .setFallback) (fun _ _ => ⟨rfl, rfl⟩) _ _ h
  · exact readSetSupervision_reads _ _ h
  · exact tagByteOp_reads (make := .setGroup) (fun _ _ => ⟨rfl, rfl⟩) _ _ h
  · exact byteOp_reads (make := .commit) (fun _ => ⟨rfl, rfl⟩) _ _ h
  · exact readSetCycle_reads _ _ h
  · exact threeOp_reads (make := .setTrigger) (fun _ _ _ => ⟨rfl, rfl⟩) _ _ h
  · exact byteOp_reads (make := .readGroup) (fun _ => ⟨rfl, rfl⟩) _ _ h
  · exact plainOp_reads ⟨rfl, rfl⟩ _ _ h
  · exact plainOp_reads ⟨rfl, rfl⟩ _ _ h
  · exact plainOp_reads ⟨rfl, rfl⟩ _ _ h
  · exact readSetLink_reads _ _ h
  · exact threeOp_reads (make := .scan) (fun _ _ _ => ⟨rfl, rfl⟩) _ _ h
  · exact plainOp_reads ⟨rfl, rfl⟩ _ _ h
  · exact plainOp_reads ⟨rfl, rfl⟩ _ _ h
  · exact plainOp_reads ⟨rfl, rfl⟩ _ _ h
  · exact plainOp_reads ⟨rfl, rfl⟩ _ _ h
  · cases h

/-! ### The entries of a batch (R151, 10.2) -/

theorem readEntries_cons (n : Nat) (identifier len : Byte) (rest : List Byte) (h : len.toNat ≤ rest.length) :
    readEntries (n + 1) (identifier :: len :: rest) =
      (readOp identifier.toNat (rest.take len.toNat)).bind fun op =>
        (readEntries n (rest.drop len.toNat)).map (op :: ·) := by
  rw [readEntries, if_pos h]
  generalize readOp identifier.toNat (rest.take len.toNat) = op
  generalize readEntries n (rest.drop len.toNat) = ops
  cases op <;> cases ops <;> rfl

/-- Entries written one after another are read back as their operations. -/
theorem readEntries_entryBytes (ops : List Op) : readEntries ops.length (ops.flatMap Op.entryBytes) = some ops := by
  induction ops with
  | nil => rfl
  | cons op ops ih =>
    have hlen : (byte op.operands.length).toNat = op.operands.length :=
      toNat_byte (Nat.lt_of_le_of_lt (length_operands_le op) (by decide))
    have hbytes : (op :: ops).flatMap Op.entryBytes =
        op.identifier :: byte op.operands.length :: (op.operands ++ ops.flatMap Op.entryBytes) := by
      simp [Op.entryBytes]
    rw [hbytes, List.length_cons, readEntries_cons _ _ _ _ (by simp [hlen]), hlen, List.take_left, List.drop_left,
      readOp_operands, ih]
    rfl

/-- Entries that are read are as many as asked for, and written again they are the bytes read. -/
theorem readEntries_eq_some {n : Nat} {bytes : List Byte} {ops : List Op} (h : readEntries n bytes = some ops) :
    ops.length = n ∧ ops.flatMap Op.entryBytes = bytes := by
  induction n generalizing bytes ops with
  | zero =>
    cases bytes with
    | nil => cases h; exact ⟨rfl, rfl⟩
    | cons => cases h
  | succ n ih =>
    match bytes with
    | [] => cases h
    | [_] => cases h
    | identifier :: len :: rest =>
      by_cases hlen : len.toNat ≤ rest.length
      · rw [readEntries_cons _ _ _ _ hlen, Option.bind_eq_some_iff] at h
        obtain ⟨op, hop, h⟩ := h
        obtain ⟨others, hothers, rfl⟩ := Option.map_eq_some_iff.mp h
        obtain ⟨hid, hoperands⟩ := readOp_reads _ _ _ hop
        obtain ⟨hcount, hbytes⟩ := ih hothers
        have hopLen : byte op.operands.length = len := by
          rw [hoperands, List.length_take, Nat.min_eq_left hlen, byte_toNat]
        refine ⟨congrArg (· + 1) hcount, ?_⟩
        rw [List.flatMap_cons, hbytes, Op.entryBytes, hopLen, hoperands, BitVec.eq_of_toNat_eq hid]
        simp
      · unfold readEntries at h
        rw [if_neg hlen] at h
        cases h

/-! ### The frame of a batch (R151, 10.2) -/

/-- The bytes of a request frame that its CRC covers. -/
def requestBody (sequence : Byte) (w : WriterNo) (ops : List Op) : List Byte :=
  byte ((ops.flatMap Op.entryBytes).length + 6) :: sequence :: byte w.val :: byte ops.length ::
    ops.flatMap Op.entryBytes

theorem requestFrame_eq (sequence : Byte) (w : WriterNo) (ops : List Op) :
    requestFrame sequence w ops = withCrc (requestBody sequence w ops) := rfl

theorem length_requestFrame (sequence : Byte) (w : WriterNo) (ops : List Op) :
    (requestFrame sequence w ops).length = (ops.flatMap Op.entryBytes).length + 6 := by
  rw [requestFrame_eq, length_withCrc]
  rfl

/-- No entry is longer than that of a CREATE. -/
theorem length_entries_le (ops : List Op) : (ops.flatMap Op.entryBytes).length ≤ 24 * ops.length := by
  induction ops with
  | nil => exact Nat.le_refl _
  | cons op ops ih =>
    have hop := length_operands_le op
    simp only [List.flatMap_cons, List.length_append, Op.entryBytes, List.length_cons, List.length_nil]
    omega

theorem batchOk_length {ops : List Op} (h : batchOk ops = true) : 1 ≤ ops.length ∧ ops.length ≤ 8 := by
  simp only [batchOk, Bool.and_eq_true, decide_eq_true_eq] at h
  exact h.1

/-- A frame is read where its length byte, its writer, its entries and its batch are as R151 asks. -/
theorem readFrame_of_fields {len sequence writer count : Byte} {rest : List Byte} {w : WriterNo} {ops : List Op}
    (hlen : len.toNat = rest.length + 4 ∧ 6 ≤ len.toNat ∧ len.toNat ≤ 240) (hw : writerNo? writer = some w)
    (hops : readEntries count.toNat (rest.take (rest.length - 2)) = some ops) (hok : batchOk ops = true) :
    readFrame (len :: sequence :: writer :: count :: rest) = some (w, ops) := by
  refine (if_pos hlen).trans ?_
  rw [hw, hops]
  exact if_pos hok

theorem readFrame_requestFrame (sequence : Byte) (w : WriterNo) {ops : List Op} (h : batchOk ops = true) :
    readFrame (requestFrame sequence w ops) = some (w, ops) := by
  have hcount := batchOk_length h
  have hentries := length_entries_le ops
  have hlen : (byte ((ops.flatMap Op.entryBytes).length + 6)).toNat = (ops.flatMap Op.entryBytes).length + 6 :=
    toNat_byte (by omega)
  refine readFrame_of_fields (rest := ops.flatMap Op.entryBytes ++ bytes16 (crc16 (requestBody sequence w ops)))
    ⟨?_, by omega, by omega⟩ (writerNo?_ofNat w) ?_ h
  · rw [hlen, List.length_append, length_bytes16]
  · rw [take_append_bytes16, toNat_byte (by omega), readEntries_entryBytes]

/-- Settles O51: a frame written is short enough, closed by its CRC, and read back entry by entry. -/
theorem writtenFramesAreReadBack : Obligations.WrittenFramesAreReadBack := by
  intro sequence w ops h
  have hcount := batchOk_length h
  have hentries := length_entries_le ops
  have hlen := length_requestFrame sequence w ops
  have hcrc : requestFrame sequence w ops =
      withCrc ((requestFrame sequence w ops).take ((requestFrame sequence w ops).length - 2)) := by
    rw [requestFrame_eq, take_withCrc]
  refine ⟨?_, rfl, by omega⟩
  exact judgeFrame_of_read (memory := none) (by omega) (by omega) hcrc (readFrame_requestFrame sequence w h)

/-- A frame that is read has the body of its batch before its last two bytes. -/
theorem readFrame_eq_some {bytes : List Byte} {w : WriterNo} {ops : List Op} (h : readFrame bytes = some (w, ops)) :
    batchOk ops = true ∧ ∃ sequence, bytes.take (bytes.length - 2) = requestBody sequence w ops := by
  unfold readFrame at h
  split at h
  next len sequence writer count rest =>
    split at h
    next hlen =>
      obtain ⟨hlen, hmin, -⟩ := hlen
      split at h
      next hw hops =>
        split at h
        next hok =>
          cases h
          obtain ⟨hcount, hentries⟩ := readEntries_eq_some hops
          obtain ⟨m, hm⟩ : ∃ m, rest.length = m + 2 := ⟨rest.length - 2, by simp at hlen; omega⟩
          have hbody : (ops.flatMap Op.entryBytes).length = m := by rw [hentries]; simp [hm]
          have hlenByte : byte (m + 6) = len := by
            rw [← byte_toNat len, hlen]
            simp [hm]
          refine ⟨hok, sequence, ?_⟩
          rw [requestBody, hbody, hlenByte, writerNo?_eq_some hw, byte_toNat, hcount, byte_toNat, hentries]
          simp [hm]
        · cases h
      · cases h
    · cases h
  · cases h

/-- Only a frame closed by its CRC and read is judged OK (R150). -/
theorem judgeFrame_eq_ok {memory : Option DuplicateMemory} {bytes : List Byte} {w : WriterNo} {ops : List Op}
    (h : judgeFrame memory bytes = .ok w ops) :
    bytes = withCrc (bytes.take (bytes.length - 2)) ∧ readFrame bytes = some (w, ops) := by
  have hlen : bytes.length ≤ 240 := by
    by_contra hlong
    rw [judgeFrame_of_tooLong (by omega)] at h
    cases h
  have hmin : 3 ≤ bytes.length := by
    by_contra hshort
    rw [judgeFrame_of_badCrc hlen (.inl (by omega))] at h
    cases h
  have hcrc : bytes = withCrc (bytes.take (bytes.length - 2)) := by
    by_contra hbad
    rw [judgeFrame_of_badCrc hlen (.inr hbad)] at h
    cases h
  cases hread : readFrame bytes with
  | none =>
    rw [judgeFrame_of_unread hlen hmin hcrc hread] at h
    cases h
  | some found =>
    rw [judgeFrame_of_read hlen hmin hcrc hread] at h
    split at h
    · cases h
    · cases h
      exact ⟨hcrc, rfl⟩

/-- Settles O52: the CRC fixes the last two bytes, and what was read fixes all before them. -/
theorem framesReadAreAsWritten : Obligations.FramesReadAreAsWritten := by
  intro bytes w ops h
  obtain ⟨hcrc, hread⟩ := judgeFrame_eq_ok h
  obtain ⟨hok, sequence, hbody⟩ := readFrame_eq_some hread
  exact ⟨hok, sequence, by rw [requestFrame_eq, ← hbody, ← hcrc]⟩

end Sys2Proof.Machine

namespace Sys2Proof.Machine

/-! ### The filter that the bytes of a SCAN spell (R167, R168) -/

theorem Filter.admits_eq (f : Filter) (r : Record) :
    f.admits r = ((f.states == 0 || f.states.getLsbD r.state.bit) && f.owner.admits r.owner &&
      f.group.all (fun g => r.group == g)) := by
  unfold Filter.admits
  cases f.group <;> rfl

theorem Record.passes_eq (states owner group : Byte) (r : Record) :
    r.passes states owner group = ((states == 0 || states.getLsbD r.state.bit) &&
      (owner == 0xFF || (owner == 0xFE && r.owner.isNone) || r.owner.any (fun w => w.val == owner.toNat)) &&
      (group == 0xFF || group.toNat == r.group.val + 1)) := by
  unfold Record.passes
  cases r.state <;> rfl

theorem groupNo?_eq_some {b : Byte} {g : GroupNo} (h : groupNo? b = some g) : g.val + 1 = b.toNat := by
  unfold groupNo? at h
  split at h
  next hb =>
    cases h
    exact Nat.sub_add_cancel hb.1
  · cases h

theorem RecordState.bit_lt (x : RecordState) : x.bit < 4 := by
  cases x <;> decide

/-- The four bits of a state set in range keep what the byte says, of the empty set too. -/
theorem stateSet_admits {states : Byte} (h : states.toNat ≤ 15) (x : RecordState) :
    (states.setWidth 4 == 0 || (states.setWidth 4).getLsbD x.bit) = (states == 0 || states.getLsbD x.bit) := by
  have hempty : (states.setWidth 4 == 0) = (states == 0) := by
    rw [Bool.eq_iff_iff, beq_iff_eq, beq_iff_eq]
    bv_omega
  rw [hempty, BitVec.getLsbD_setWidth, decide_eq_true x.bit_lt, Bool.true_and]

/-- The owner byte: no writer's number is one of the two bytes that stand for UNOWNED and ANY. -/
theorem ownerFilter?_admits {b : Byte} {f : OwnerFilter} (h : ownerFilter? b = some f) (owner : Option WriterNo) :
    f.admits owner = (b == 0xFF || (b == 0xFE && owner.isNone) || owner.any (fun w => w.val == b.toNat)) := by
  unfold ownerFilter? at h
  split at h
  next hany =>
    cases h
    simp [OwnerFilter.admits, hany]
  next hany =>
    split at h
    next hunowned =>
      cases h
      have hnoWriter : ∀ w : WriterNo, w.val ≠ 254 := fun w => by omega
      cases owner <;> simp [OwnerFilter.admits, hunowned, hnoWriter]
    next hunowned =>
      obtain ⟨w, hw, rfl⟩ := Option.map_eq_some_iff.mp h
      rw [beq_false_of_ne hany, beq_false_of_ne hunowned, ← writerNo?_eq_some hw, Bool.false_and, Bool.false_or]
      cases owner with
      | none => rfl
      | some v => exact Bool.eq_iff_iff.mpr (by simp [OwnerFilter.admits, Fin.ext_iff])

theorem groupFilter?_admits {b : Byte} {f : Option GroupNo} (h : groupFilter? b = some f) (group : GroupNo) :
    f.all (fun g => group == g) = (b == 0xFF || b.toNat == group.val + 1) := by
  unfold groupFilter? at h
  split at h
  next hany =>
    cases h
    simp [hany]
  next hany =>
    obtain ⟨g, hg, rfl⟩ := Option.map_eq_some_iff.mp h
    rw [beq_false_of_ne hany, Bool.false_or, ← groupNo?_eq_some hg, Bool.eq_iff_iff, beq_iff_eq]
    simp only [Option.all_some, beq_iff_eq, Fin.ext_iff]
    omega

theorem filter?_eq_some {states owner group : Byte} {f : Filter} (h : filter? states owner group = some f) :
    states.toNat ≤ 15 ∧ f.states = states.setWidth 4 ∧ ownerFilter? owner = some f.owner ∧
      groupFilter? group = some f.group := by
  unfold filter? at h
  split at h
  next ho hg =>
    split at h
    next hstates =>
      cases h
      exact ⟨Nat.le_of_lt_succ hstates, rfl, ho, hg⟩
    · cases h
  · cases h

/-- The filter that three bytes spell admits the records that pass them. -/
theorem filter?_admits {states owner group : Byte} {f : Filter} (h : filter? states owner group = some f) :
    f.admits = Record.passes states owner group := by
  obtain ⟨hrange, hstates, howner, hgroup⟩ := filter?_eq_some h
  funext r
  rw [Filter.admits_eq, hstates, stateSet_admits hrange, ownerFilter?_admits howner, groupFilter?_admits hgroup,
    Record.passes_eq]

theorem exists_filter {states owner group : Byte} (hs : states.toNat ≤ 15)
    (ho : owner.toNat ≤ 7 ∨ owner = 0xFE ∨ owner = 0xFF)
    (hg : 1 ≤ group.toNat ∧ group.toNat ≤ 15 ∨ group = 0xFF) : ∃ f, filter? states owner group = some f := by
  refine Option.ne_none_iff_exists'.mp fun hnone => ?_
  rcases (filter?_eq_none states owner group).mp hnone with hbad | ⟨hlarge, hunowned, hany⟩ | ⟨hbad, hany⟩
  · omega
  · exact ho.elim (by omega) fun h => h.elim hunowned hany
  · bv_omega

/-! ### SCAN and SCAN_NEXT (R168, R169) -/

section
variable {s : State} {p : PortId} {w : WriterNo} (hw : s.speaks p w)
include hw

theorem opScan_of_filter {states owner group : Byte} {f : Filter} (hf : filter? states owner group = some f) :
    opScan p w states owner group s = walk p { writer := w, filter := f, nextSlot := 0 } s := by
  rw [opScan, admitted_of_speaks hw, hf]

theorem opScanNext_of_cursor {c : Cursor} (hc : (s.port p).cursor = some c) (ho : c.writer = w) :
    opScanNext p w s = walk p c s := by
  rw [opScanNext, admitted_of_speaks hw, hc]
  exact require_of _ _ _ _ ho

end

/-- Settles O42: both operations are one walk, from a new cursor or from the caller's own. -/
theorem scansWalkTheTable : Obligations.ScansWalkTheTable := by
  intro p w s hw
  refine ⟨fun states owner group hs ho hg => ?_, fun c hc ho => ?_⟩
  · obtain ⟨f, hf⟩ := exists_filter hs ho hg
    have hadmits := filter?_admits hf
    refine ⟨_, f, exec_operation rfl s, congrFun hadmits, ?_⟩
    rw [applyOp, opScan_of_filter hw hf, ← hadmits]
    exact s.walk_spec p _
  · refine ⟨_, exec_operation rfl s, ?_⟩
    rw [applyOp, opScanNext_of_cursor hw hc ho, ← ho]
    exact s.walk_spec p c

/-! ### POLL and STATUS (R165, R171) -/

/-- A queue split after its eighth notice, or after its last where it holds fewer. -/
theorem take_drop_of_split {α : Type} {first rest : List α} {n : Nat}
    (h : first.length = n ∨ first.length < n ∧ rest = []) :
    (first ++ rest).take n = first ∧ (first ++ rest).drop n = rest := by
  rcases h with rfl | ⟨hshort, rfl⟩
  · exact ⟨List.take_left, List.drop_left⟩
  · rw [List.append_nil]
    exact ⟨List.take_of_length_le hshort.le, List.drop_of_length_le hshort.le⟩

/-- Settles O43: the split of the queue is the one POLL makes, and STATUS lists the eight writers in order. -/
theorem pollAndStatusReportAndClear : Obligations.PollAndStatusReportAndClear := by
  intro p w s hw
  refine ⟨fun first rest hqueue hsplit => ?_, ?_⟩
  · obtain ⟨hfirst, hrest⟩ := take_drop_of_split hsplit
    rw [exec_operation rfl, applyOp, opPoll, admitted_of_speaks hw, hqueue, hfirst, hrest]
    rfl
  · rw [exec_operation rfl, applyOp, opStatus, admitted_of_speaks hw]
    rfl

end Sys2Proof.Machine

namespace Sys2Proof.Machine

/-! ### Bytes on RXP (R176) -/

/-- The ten bits of a byte on RXP spell its reception. -/
theorem rxpCommand?_bits (byte : Byte) (stopHigh : Bool) :
    rxpCommand?
        [false, byte.getLsbD 0, byte.getLsbD 1, byte.getLsbD 2, byte.getLsbD 3, byte.getLsbD 4, byte.getLsbD 5,
          byte.getLsbD 6, byte.getLsbD 7, stopHigh] = some (.rxpByte byte stopHigh .stopBit) :=
  congrArg (fun b => some (Instr.rxpByte b stopHigh .stopBit)) (byteOfBits_msbFirst byte)

theorem OpenByte.missedBy_iff (o : OpenByte) (r : Reception) :
    o.missedBy r = true ↔ 20 * bitTime r.rate + r.age < o.age := by
  rw [OpenByte.missedBy, decide_eq_true_iff, ackWindow]
  omega

section
variable {s : State} {byte : Byte} {stopHigh : Bool}

theorem State.beginByte_of_none (h : s.rxp = none) :
    s.beginByte = { s with rxp := some { rate := s.link.settings.bitRate, age := 0 } } := by
  simp only [State.beginByte, h]

theorem State.beginByte_of_underWay (h : s.rxp ≠ none) : s.beginByte = s := by
  obtain ⟨r, hr⟩ := Option.ne_none_iff_exists'.mp h
  simp only [State.beginByte, hr]

/-- The byte that ends is the one under way, or one that began a whole byte earlier at the link's rate. -/
theorem State.reception_eq {rate : BitRate} {since : Nat}
    (h : s.rxp = some { rate := rate, age := since } ∨
      s.rxp = none ∧ rate = s.link.settings.bitRate ∧ since = 10 * bitTime rate) :
    s.reception = { rate := rate, age := since } := by
  rcases h with h | ⟨h, rfl, rfl⟩
  · simp only [State.reception, h]
  · simp only [State.reception, h, byteTime]

variable {r : Reception}

theorem State.receive_of_off (hs : s.link.state = .off) : s.receive r byte stopHigh = s :=
  if_pos hs

theorem State.receive_of_stopLow (hs : s.link.state ≠ .off) : s.receive r byte false = s.setOpenByte none :=
  (if_neg hs).trans (if_pos rfl)

theorem State.receive_of_closed (hs : s.link.state ≠ .off) (ho : s.link.openByte = none) :
    s.receive r byte true = s.openAck byte := by
  simp only [State.receive, if_neg hs, ho, Bool.true_eq_false, if_false]

/-- With a byte open, the reception's age against the window decides. -/
theorem State.receive_of_open {o : OpenByte} (hs : s.link.state ≠ .off) (ho : s.link.openByte = some o) :
    s.receive r byte true =
      if 20 * bitTime r.rate + r.age < o.age then s.openAck byte else s.acknowledgement o.kind byte := by
  simp only [State.receive, if_neg hs, ho, Bool.true_eq_false, if_false, OpenByte.missedBy_iff,
    State.acknowledgement_of_enabled hs]

end

/-- Settles O39: `State.receive` decides for the byte that `State.reception_eq` names. -/
theorem receivedBytesPairUp : Obligations.ReceivedBytesPairUp := by
  intro byte stopHigh s
  refine ⟨fun h => congrArg _ (State.beginByte_of_none h), fun h => congrArg _ (State.beginByte_of_underWay h),
    fun rate since h => ?_, rxpCommand?_bits byte stopHigh⟩
  intro ended opened
  have received {t : State} (ht : ended.receive { rate := rate, age := since } byte stopHigh = t) :
      exec (.rxpByte byte stopHigh .stopBit) s = .next t := by
    rw [← ht, ← State.reception_eq h]
    rfl
  refine ⟨fun hs => received (State.receive_of_off hs), fun hs hlow => received ?_,
    fun hs hhigh ho => received ?_, fun o hs hhigh ho => ⟨fun hlate => received ?_, fun hintime => received ?_⟩⟩
  · subst hlow
    exact State.receive_of_stopLow hs
  · subst hhigh
    exact State.receive_of_closed hs ho
  · subst hhigh
    exact (State.receive_of_open (s := ended) (r := ⟨rate, since⟩) hs ho).trans (if_pos hlate)
  · subst hhigh
    exact (State.receive_of_open (s := ended) (r := ⟨rate, since⟩) hs ho).trans (if_neg (Nat.not_lt.mpr hintime))

end Sys2Proof.Machine

namespace Sys2Proof.Machine

/-! ### Fields at their offsets (10.1, R174) -/

section
variable (x : Byte) (l : List Byte) (n : Nat)

@[simp] theorem byteAt_cons_zero : byteAt (x :: l) 0 = x := rfl

@[simp] theorem byteAt_cons_succ : byteAt (x :: l) (n + 1) = byteAt l n := by
  simp [byteAt]

@[simp] theorem wordAt_cons_succ : wordAt (x :: l) (n + 1) = wordAt l n := by
  simp [wordAt]

@[simp] theorem valueAt_cons_succ : valueAt (x :: l) (n + 1) = valueAt l n := by
  simp [valueAt, Nat.add_right_comm n 1 2]

end

/-- The two bytes of a 16-bit field are read back as the field. -/
@[simp] theorem wordAt_field (x : Word16) (l : List Byte) :
    wordAt (x.extractLsb' 8 8 :: x.extractLsb' 0 8 :: l) 0 = x :=
  word16_bytes16 x

@[simp] theorem wordAt_zeros (l : List Byte) : wordAt (0#8 :: 0#8 :: l) 0 = 0#16 := by
  simp [wordAt]

/-- The four bytes of a 32-bit field are read back as the field. -/
@[simp] theorem valueAt_field (x : Value) (l : List Byte) :
    valueAt (x.extractLsb' 24 8 :: x.extractLsb' 16 8 :: x.extractLsb' 8 8 :: x.extractLsb' 0 8 :: l) 0 = x :=
  word32_bytes32 x

theorem byteAt_append (a l : List Byte) (n : Nat) : byteAt (a ++ l) (a.length + n) = byteAt l n := by
  rw [byteAt, List.getElem?_append_right (Nat.le_add_right _ _), Nat.add_sub_cancel_left, byteAt]

theorem wordAt_append (a l : List Byte) (n : Nat) : wordAt (a ++ l) (a.length + n) = wordAt l n := by
  rw [wordAt, Nat.add_assoc, byteAt_append, byteAt_append, wordAt]

theorem getElem?_eq_byteAt {l : List Byte} {n : Nat} (h : n < l.length) : l[n]? = some (byteAt l n) := by
  simp [byteAt, h]

theorem byteOf_eq (n : Nat) : byteOf n = byte n := rfl

theorem count16_eq (n : Nat) : count16 n = bytes16 (wordOf n) := rfl

/-! ### Flag bytes (notes/assumptions/20.md) -/

theorem flagByte_getLsbD (flags : List Bool) {i : Nat} (h : i < 8) :
    (flagByte flags).getLsbD i = flags.getD i false := by
  induction flags generalizing i with
  | nil => simp [flagByte]
  | cons b flags ih =>
    cases i with
    | zero => cases b <;> simp [flagByte, yesNoByte]
    | succ i =>
      have hi : i < 8 := by omega
      have hrest := ih hi
      cases b <;> simpa [flagByte, yesNoByte, h, hi] using hrest

/-- The bits of a flag byte are its flags, and 0 after them. -/
theorem bitsOf_flagByte {flags : List Bool} (h : flags.length ≤ 8) :
    bitsOf (flagByte flags) = flags ++ List.replicate (8 - flags.length) false := by
  refine List.ext_getElem (by simp [bitsOf]; omega) fun i hi _ => ?_
  have hi8 : i < 8 := by simpa [bitsOf] using hi
  by_cases hflag : i < flags.length <;> simp [bitsOf, flagByte_getLsbD flags hi8, hflag, List.getElem_append]

/-! ### Views and notices (10.5) -/

theorem Description.sentAs_bytes (d : Description) : d.SentAs d.bytes := by
  simp [Description.SentAs, Description.bytes, valueBytes, bytes16, bytes32, count16_eq, byteOf_eq, bitsOf_flagByte]

theorem ShortView.sentAs_bytes (v : ShortView) : v.SentAs v.bytes := by
  simp [ShortView.SentAs, ShortView.bytes, valueBytes, bytes16, bytes32, byteOf_eq, bitsOf_flagByte]

theorem Notice.sentAs_bytes (n : Notice) : n.SentAs n.bytes := by
  cases n <;> simp [Notice.SentAs, Notice.bytes, bytes16, byteOf_eq]

/-! ### The data of a result (10.3) -/

/-- Entry `k` stands behind a head and `k` entries of one length. -/
theorem entry_append_flatMap {α : Type} {f : α → List Byte} {m : Nat} (h : ∀ a, (f a).length = m) {l : List α} {k : Nat}
    {a : α} (hk : l[k]? = some a) {head : List Byte} {n : Nat} (hn : head.length = n) :
    ((head ++ l.flatMap f).drop (n + m * k)).take m = f a := by
  rw [← hn, List.drop_length_add_append, take_drop_flatMap h hk]

theorem Data.sentAs_bytes_views (atEnd : Bool) (next : Nat) (list : List ShortView) :
    (Data.views atEnd next list).SentAs (Data.views atEnd next list).bytes := by
  have hlen (v : ShortView) : v.bytes.length = 14 := v.sentAs_bytes.1
  have hhead : (Data.views atEnd next list).bytes =
      ([byte list.length, yesNoByte atEnd] ++ count16 next) ++ list.flatMap ShortView.bytes := rfl
  refine ⟨?_, rfl, rfl, ?_, fun k v hk => ?_⟩
  · rw [hhead, List.length_append, length_flatMap_of_length hlen]
    rfl
  · simp [Data.bytes, bytes16, count16_eq]
  · rw [hhead, entry_append_flatMap hlen hk (n := 4) rfl]
    exact v.sentAs_bytes

theorem Data.sentAs_bytes_notices (overflow : Bool) (left : Nat) (list : List Notice) :
    (Data.notices overflow left list).SentAs (Data.notices overflow left list).bytes := by
  have hlen (n : Notice) : n.bytes.length = 6 := n.sentAs_bytes.1
  have hhead : (Data.notices overflow left list).bytes =
      [byte list.length, yesNoByte overflow, byte left] ++ list.flatMap Notice.bytes := rfl
  refine ⟨?_, rfl, rfl, rfl, fun k n hk => ?_⟩
  · rw [hhead, List.length_append, length_flatMap_of_length hlen]
    rfl
  · rw [hhead, entry_append_flatMap hlen hk (n := 3) rfl]
    exact n.sentAs_bytes

theorem Data.sentAs_bytes_status (level : SafeLevel) (seen refused : Bool) (link : LinkState)
    (pending free vacating : Nat) (bindings : List (Option PortId)) :
    (Data.status level seen refused link pending free vacating bindings).SentAs
      (Data.status level seen refused link pending free vacating bindings).bytes := by
  refine ⟨?_, rfl, bitsOf_flagByte (flags := [seen, refused]) (by simp), rfl, ?_, ?_, ?_, fun k x hk => ?_⟩
  · simp [Data.bytes, count16_eq]
    omega
  iterate 3
    · simp [Data.bytes, bytes16, count16_eq]
  · have hbinding : byteAt (bindings.map portByte) k = portByte x := by simp [byteAt, hk]
    exact (byteAt_append _ _ k).trans hbinding

/-- Data without a list in it is a fixed sequence of fields; the rest have lemmas of their own. -/
theorem Data.sentAs_bytes (d : Data) : d.SentAs d.bytes := by
  cases d
  case description d => exact d.sentAs_bytes
  case views atEnd next list => exact Data.sentAs_bytes_views atEnd next list
  case notices overflow left list => exact Data.sentAs_bytes_notices overflow left list
  case status level seen refused link pending free vacating bindings =>
    exact Data.sentAs_bytes_status level seen refused link pending free vacating bindings
  all_goals
    simp [Data.SentAs, Data.bytes, TriggerEntry.bytes, bytes16, bytes32, count16_eq, byteOf_eq, bitsOf_flagByte]

/-! ### Responses (10.4, R156) -/

/-- The header of a response: all that stands before its results. -/
def Response.header (r : Response) : List Byte :=
  count16 (resultsLength r.results + 9) ++
    [r.sequence, r.status.code, flagByte [r.overrun, r.previousUnread, r.noticeOverflow], byte r.noticeCount,
      byte r.results.length]

theorem Response.bytes_eq (r : Response) : r.bytes = withCrc (r.header ++ r.results.flatMap OpResult.bytes) := by
  rw [Response.header, ← length_resultBytes]
  rfl

theorem Response.length_bytes (r : Response) : r.bytes.length = 9 + resultsLength r.results := by
  rw [r.bytes_eq, length_withCrc, List.length_append, length_resultBytes]
  simp [Response.header, count16_eq]
  omega

/-- The CRC field stands behind what it closes. -/
theorem wordAt_withCrc (bytes : List Byte) :
    wordAt (withCrc bytes) ((withCrc bytes).length - 2) =
      crc16 ((withCrc bytes).take ((withCrc bytes).length - 2)) := by
  rw [take_withCrc, length_withCrc, Nat.add_sub_cancel, withCrc]
  exact (wordAt_append bytes (bytes16 (crc16 bytes)) 0).trans (wordAt_field _ [])

/-- A result stands behind the header and the results before it. -/
theorem Response.bytes_split {r : Response} {before rest : List OpResult} {x : OpResult}
    (h : r.results = before ++ x :: rest) :
    ∃ front back, front.length = 7 + resultsLength before ∧ r.bytes = front ++ (x.bytes ++ back) := by
  refine ⟨r.header ++ before.flatMap OpResult.bytes,
    rest.flatMap OpResult.bytes ++ bytes16 (crc16 (r.header ++ r.results.flatMap OpResult.bytes)), ?_, ?_⟩
  · rw [List.length_append, length_resultBytes]
    rfl
  · rw [r.bytes_eq, withCrc, h]
    simp

theorem resultsLength_le {results : List OpResult} (h : ∀ x ∈ results, x.data.bytes.length ≤ 255) :
    resultsLength results ≤ 257 * results.length := by
  have hone : ∀ n ∈ results.map fun x => 2 + x.data.bytes.length, n ≤ 257 :=
    List.forall_mem_map.mpr fun x hx => by have := h x hx; omega
  simpa [resultsLength, Nat.mul_comm] using List.sum_le_card_nsmul _ _ hone

/-- A result at its offset: its status, the length of its data, its data (10.4). -/
theorem Response.result_at {r : Response} {before rest : List OpResult} {x : OpResult}
    (h : r.results = before ++ x :: rest) (hx : x.data.bytes.length ≤ 255) :
    byteAt r.bytes (7 + resultsLength before) = x.status.code ∧
      (byteAt r.bytes (8 + resultsLength before)).toNat = x.data.bytes.length ∧
      (r.bytes.drop (9 + resultsLength before)).take x.data.bytes.length = x.data.bytes := by
  obtain ⟨front, back, hfront, hbytes⟩ := Response.bytes_split h
  rw [hbytes, show 8 + resultsLength before = front.length + 1 by omega,
    show 9 + resultsLength before = front.length + 2 by omega, ← hfront]
  refine ⟨byteAt_append front _ 0, ?_, ?_⟩
  · rw [byteAt_append]
    exact toNat_byte (by omega)
  · rw [List.drop_length_add_append]
    exact List.take_left

theorem Response.sentAs_bytes {r : Response} (hcount : r.results.length ≤ 8)
    (hdata : ∀ x ∈ r.results, x.data.bytes.length ≤ 255) : r.SentAs r.bytes := by
  have hlen := r.length_bytes
  have hbound := resultsLength_le hdata
  have hfront : r.bytes = r.header ++ (r.results.flatMap OpResult.bytes ++
      bytes16 (crc16 (r.header ++ r.results.flatMap OpResult.bytes))) := by
    rw [r.bytes_eq, withCrc, List.append_assoc]
  refine ⟨hlen, ?_, ?_, ?_, ?_, ?_, ?_, fun before x rest h => Response.result_at h (hdata x (by simp [h])), ?_⟩
  · have hfield : wordAt r.bytes 0 = wordOf (resultsLength r.results + 9) := by
      rw [hfront]
      exact wordAt_field _ _
    rw [hfield, hlen, wordOf, BitVec.toNat_ofNat, Nat.mod_eq_of_lt (by omega), Nat.add_comm]
  · rw [hfront]; rfl
  · rw [hfront]; rfl
  · rw [hfront]; exact bitsOf_flagByte (by simp)
  · rw [hfront]; rfl
  · rw [hfront]; rfl
  · rw [r.bytes_eq]
    exact wordAt_withCrc _

/-! ### Publication frames and TXP (10.6, R175) -/

theorem PubFrame.sentAs_bytes (f : PubFrame) : f.SentAs f.bytes := by
  simp [PubFrame.SentAs, PubFrame.bytes, PubFrame.body, withCrc, bytes16, bytes32]

/-- A byte on TXP: a low start bit, the byte's bits from the least significant, a high stop bit. -/
theorem lineBits_getElem? (b : Byte) {j : Nat} (h : j < 10) :
    (lineBits b)[j]? = some (if j = 0 then false else if j = 9 then true else b.getLsbD (j - 1)) := by
  interval_cases j <;> rfl

/-- The bits of the bytes on TXP follow one another, ten for each. -/
theorem flatMap_lineBits_getElem? (bytes : List Byte) {k j : Nat} (hk : k < bytes.length) (hj : j < 10) :
    (bytes.flatMap lineBits)[10 * k + j]? = (lineBits (byteAt bytes k))[j]? := by
  induction bytes generalizing k with
  | nil => simp at hk
  | cons b bytes ih =>
    rw [List.flatMap_cons]
    cases k with
    | zero =>
      rw [Nat.mul_zero, Nat.zero_add]
      exact List.getElem?_append_left hj
    | succ k =>
      rw [byteAt_cons_succ, ← ih (by simpa using hk), List.getElem?_append_right (by simp [lineBits]; omega)]
      congr 1
      simp [lineBits]
      omega

theorem PubFrame.txpBits_getElem? (f : PubFrame) {k j : Nat} (hk : k < 14) (hj : j < 10) :
    f.txpBits[10 * k + j]? =
      some (if j = 0 then false else if j = 9 then true else (byteAt f.bytes k).getLsbD (j - 1)) := by
  rw [PubFrame.txpBits, flatMap_lineBits_getElem? _ (by rwa [f.sentAs_bytes.1]) hj, lineBits_getElem? _ hj]

/-- TXP carries the bit that the running transmission has reached. -/
theorem Link.txp_running {l : Link} {f : InFlight} {elapsed : Nat} {rate : BitRate} (hf : l.inFlight = some f)
    (he : elapsed < 140 * bitTime rate) (ht : l.transmission = .running (140 * bitTime rate - elapsed) rate) :
    f.frame.txpBits[elapsed / bitTime rate]? = some l.txp := by
  have hreached : transmissionTime rate - (140 * bitTime rate - elapsed) = elapsed := by
    rw [transmissionTime]
    omega
  have hbit : elapsed / bitTime rate < f.frame.txpBits.length := by
    rw [PubFrame.length_txpBits]
    exact Nat.div_lt_of_lt_mul (by rwa [Nat.mul_comm])
  simp only [Link.txp, hf, ht, hreached, List.getElem?_eq_getElem hbit, Option.getD_some]

/-- Settles O54: `Response.sentAs_bytes`, `Data.sentAs_bytes` and `PubFrame.sentAs_bytes` read the bytes field by field,
`PubFrame.txpBits_getElem?` and `Link.txp_running` the bits on TXP; the code tables are finite. -/
theorem responsesAndFramesAreSentAsLaidOut : Obligations.ResponsesAndFramesAreSentAsLaidOut := by
  refine ⟨fun r => Response.sentAs_bytes, Data.sentAs_bytes,
    fun f => ⟨f.sentAs_bytes, f.length_txpBits, fun k j => f.txpBits_getElem?⟩,
    fun l => ⟨fun f elapsed rate => Link.txp_running, fun h => h.elim l.txp_stopped l.txp_noFrame⟩, ?_⟩
  decide

end Sys2Proof.Machine

namespace Sys2Proof.Machine

/-! ### A step with a command waiting (notes/assumptions/1.md) -/

/-- With a command waiting, a step takes the command at the front of the queue and leaves it the rest. -/
theorem step_of_waiting_command {s : State} {c : Instr} {rest : List Instr} (h : s.pending = c :: rest) :
    step s = exec c { s with pending := rest } := by
  rw [step, h]

/-- Settles O1: the queue of the state is the command and the rest of the queue. -/
theorem stepRunsFrontCommand : Obligations.StepRunsFrontCommand :=
  fun _ _ _ => step_of_waiting_command rfl

/-! ### The CRC register (10.7) -/

theorem crcShift_of_msb_clear {c : Word16} (h : c.msb = false) : crcShift c = c <<< 1 := by
  simp [crcShift, h]

/-- While the bits shifted out are 0, the generator is never combined. -/
theorem crcShifts_of_top_clear {n : Nat} {c : Word16} (h : ∀ i < n, c.getMsbD i = false) :
    crcShifts n c = c <<< n := by
  induction n generalizing c with
  | zero => exact (BitVec.shiftLeft_zero c).symm
  | succ n ih =>
    have hshift : crcShift c = c <<< 1 := crcShift_of_msb_clear (h 0 n.succ_pos)
    have hrest : ∀ i < n, (c <<< 1).getMsbD i = false := fun i hi => by
      rw [BitVec.getMsbD_shiftLeft]
      exact h (i + 1) (by omega)
    rw [crcShifts, hshift, ih hrest, ← BitVec.shiftLeft_add, Nat.add_comm]

/-- The bits of a 16-bit field from the top: those of its first byte, then those of its second. -/
theorem getMsbD_word16 (hi lo : Byte) (i : Nat) :
    (word16 hi lo).getMsbD i = if 8 ≤ i then lo.getMsbD (i - 8) else hi.getMsbD i :=
  BitVec.getMsbD_append

/-- Eight shifts of a register with a clear top byte bring its low byte to the top. -/
theorem crcShifts_eight_of_top_clear (lo : Byte) : crcShifts 8 (word16 0 lo) = word16 lo 0 := by
  have hclear : ∀ i < 8, (word16 0 lo).getMsbD i = false := fun i hi => by
    rw [getMsbD_word16, if_neg (by omega)]
    exact BitVec.getMsbD_zero
  rw [crcShifts_of_top_clear hclear]
  refine BitVec.eq_of_getMsbD_eq fun i _ => ?_
  rw [BitVec.getMsbD_shiftLeft, getMsbD_word16, getMsbD_word16, if_pos (by omega), Nat.add_sub_cancel]
  split
  next hlow => rw [BitVec.getMsbD_of_ge lo i hlow]; exact BitVec.getMsbD_zero.symm
  next => rfl

/-- A byte equal to the register's top byte clears it, so that eight shifts bring the low byte to the top. -/
theorem crcByte_top (hi lo : Byte) : crcByte (word16 hi lo) hi = word16 lo 0 := by
  calc crcByte (word16 hi lo) hi
      = crcShifts 8 (word16 hi lo ^^^ word16 hi 0) := rfl
    _ = crcShifts 8 (word16 (hi ^^^ hi) (lo ^^^ 0)) := congrArg _ BitVec.xor_append
    _ = crcShifts 8 (word16 0 lo) := congrArg _ (congrArg₂ word16 BitVec.xor_self BitVec.xor_zero)
    _ = word16 lo 0 := crcShifts_eight_of_top_clear lo

/-- The bytes of a register value, run through that register, leave 0. -/
theorem foldl_crcByte_bytes16 (c : Word16) : (bytes16 c).foldl crcByte c = 0 := by
  have hhi := crcByte_top (c.extractLsb' 8 8) (c.extractLsb' 0 8)
  rw [word16_bytes16] at hhi
  calc (bytes16 c).foldl crcByte c
      = crcByte (crcByte c (c.extractLsb' 8 8)) (c.extractLsb' 0 8) := rfl
    _ = crcByte (word16 (c.extractLsb' 0 8) 0) (c.extractLsb' 0 8) := by rw [hhi]
    _ = word16 0 0 := crcByte_top _ _
    _ = 0 := rfl

/-- Settles O53: the two bytes that close the bytes are those the register holds after them. -/
theorem crcLeavesZero : Obligations.CrcLeavesZero := fun bytes => by
  rw [withCrc, crc16, List.foldl_append]
  exact foldl_crcByte_bytes16 (crc16 bytes)

end Sys2Proof.Machine
